-- ==== Sys2Proof/Word.lean ====
section
/-! DEFINITION. The words and identities of the TL832: what its buses carry and what numbers its records. -/

namespace Sys2Proof

/-- A 32-bit word (Conventions, "A word is 32 bits"): a window word, a bus address, a fill pattern. -/
abbrev Word := BitVec 32

/-- A master identity, 0 to 7, as the three identity tag lines carry it (R108, R124). -/
abbrev Mid := Fin 8

/-- The number of a pool record, 0 to 3 (R1). -/
abbrev PoolIx := Fin 4

/-- The number of a lease slot, 0 to 31 (R15). -/
abbrev SlotIx := Fin 32

/-- A claim tag, 0 to 255 (Table 3-1). -/
abbrev Tag := BitVec 8

/-- A lease handle: generation in bits 15:8, zero in bits 7:5, slot number in bits 4:0 (R21, Table 2-4). -/
abbrev Handle := BitVec 16

end Sys2Proof
end

