-- ==== Sys2Proof/Syntax.lean ====
section
/-! DEFINITION. The commands of the TL832: one constructor for each row of spec/opcode_table.json.

A request row is the write of that request's code to the REQUEST word of master `m`'s slot; its arguments are not
operands, because the part takes them from ARG0 to ARG3 of the slot as they stand (R167). -/

namespace Sys2Proof

/-- The direction of a bus access (Table 6-1). -/
inductive Direction where
  | read
  | write
  deriving DecidableEq, Repr

/-- The commands, in the order of the table. -/
inductive Instr where
  /-- ATTACH (R129). -/
  | attach (m : Mid)
  /-- DETACH (R131). -/
  | detach (m : Mid)
  /-- CLAIM (R42). -/
  | claim (m : Mid)
  /-- CANCEL (R59). -/
  | cancel (m : Mid)
  /-- RENEW (R80). -/
  | renew (m : Mid)
  /-- RELEASE (R88). -/
  | release (m : Mid)
  /-- DOWNGRADE (R92). -/
  | downgrade (m : Mid)
  /-- UPGRADE (R94). -/
  | upgrade (m : Mid)
  /-- LEND (R98). -/
  | lend (m : Mid)
  /-- RETURN (R100). -/
  | giveBack (m : Mid)
  /-- RECALL (R102). -/
  | recall (m : Mid)
  /-- NEXT NOTICE (R147). -/
  | nextNotice (m : Mid)
  /-- INSPECT (R35). -/
  | inspect (m : Mid)
  /-- STATUS (R133). -/
  | status (m : Mid)
  /-- SET POOL (R13). -/
  | setPool (m : Mid)
  /-- SET TIMING (R71). -/
  | setTiming (m : Mid)
  /-- SET MASTER (R134). -/
  | setMaster (m : Mid)
  /-- SET FILL (R159). -/
  | setFill (m : Mid)
  /-- FENCE (R136). -/
  | fence (m : Mid)
  /-- UNFENCE (R140). -/
  | unfence (m : Mid)
  /-- CLEAR NOTE (R141). -/
  | clearNote (m : Mid)
  /-- REVOKE (R84). -/
  | revoke (m : Mid)
  /-- SCRUB (R153). -/
  | scrub (m : Mid)
  /-- CLEAR (R160). -/
  | clear (m : Mid)
  /-- ADOPT (R161). -/
  | adopt (m : Mid)
  /-- SOFT RESET (R142). -/
  | softReset (m : Mid)
  /-- UNKNOWN_REQUEST (R167): the write of `code` to REQUEST, `code` not being in Table 10-2. -/
  | unknownRequest (m : Mid) (code : BitVec 8)
  /-- WINDOW_WRITE (R166): a 4-byte write of `data` at an aligned window offset other than that of REQUEST. -/
  | windowWrite (m : Mid) (offset : BitVec 8) (data : Word)
  /-- MALFORMED_WINDOW_ACCESS (R166): a window access that is not an aligned 4-byte access. -/
  | malformedWindowAccess (m : Mid) (offset : BitVec 8) (dir : Direction) (size : Nat) (data : Word)
  /-- ACCESS (R108, R111): one bus transaction. `data` is what a 4-byte write carries, and only the window looks at it. -/
  | access (m : Mid) (address : Word) (dir : Direction) (size : Nat) (data : Word)
  /-- TICK (R69): the tick period in progress completes. -/
  | tick
  /-- LEASE_TABLE_TICK (R74): the lease table takes a lease tick. -/
  | leaseTableTick
  /-- CLAIM_QUEUE_TICK (R56): the claim queue takes a lease tick. -/
  | claimQueueTick
  /-- TERM_EXPIRY (R76): the exclusive term of slot `k` reaches 0. -/
  | termExpiry (k : SlotIx)
  /-- GRACE_END (R77): the grace remaining of slot `k` reaches 0. -/
  | graceEnd (k : SlotIx)
  /-- SHARER_EXPIRY (R79): the term of `m`'s sharer entry in slot `k` reaches 0. -/
  | sharerExpiry (k : SlotIx) (m : Mid)
  /-- WAIT_LIMIT_EXPIRY (R57): the wait remaining of `m`'s entry of that tag reaches 0. -/
  | waitLimitExpiry (m : Mid) (tag : Tag)
  /-- RUN_START (R155): BGNT is asserted. -/
  | runStart
  /-- SCRUB_WORD_ACK (R155): the scrub word in flight is acknowledged. -/
  | scrubWordAck
  /-- SCRUB_WRITE_ERROR (R157): the scrub word in flight is answered with the bus error response. -/
  | scrubWriteError
  /-- BGNT_DEASSERTED (R156): BGNT is withdrawn. -/
  | bgntDeasserted
  /-- POWER_ON_RESET (R143), with the strap values the reset samples. -/
  | powerOnReset (supmid : Mid) (wseg : BitVec 4)
  /-- PIN_RESET (R143), with the strap values the reset samples. -/
  | pinReset (supmid : Mid) (wseg : BitVec 4)
  /-- END_OF_RESET (R110): the end of a power-on or pin reset. -/
  | endOfReset
  deriving DecidableEq, Repr

end Sys2Proof
end

