-- ==== Sys2Proof/Decode.lean ====
section
/-! DEFINITION. The command a word spells by the table's bits. No row of the table gives bits: a command reaches the
part as a bus transaction or an event on a pin, so no word spells one. -/

namespace Sys2Proof

/-- The command that `nbits` bits `w` spell by the bits of spec/opcode_table.json, which gives none to any row. -/
def decodeTableWord (_nbits _w : Nat) : Option Instr := none

end Sys2Proof
end

