-- ==== Sys2Proof/Config.lean ====
section
/-! DEFINITION. What the spec leaves open and the model leaves free: a constant with no body, so that nothing
stated about the model can rest on its value. -/

namespace Sys2Proof.Config

/-- Whether the lease table takes the `n`-th tick made before the claim queue does, when both have it waiting and
nothing but the passing of time decides (R70: "in either order"). Assumption log 2. -/
opaque leaseTableTakesTickFirst : Nat → Bool

end Sys2Proof.Config
end

