-- ==== Sys2Proof/Machine/State.lean ====
section
/-! DEFINITION. The state of the TL832 as plain data, block by block, and its value after reset. -/

namespace Sys2Proof.Machine

/-! ### Pool table (Section 1) -/

/-- Granule sizes, named by the granule codes 0 to 3 (Table 1-2). -/
inductive GranuleSize where
  | b256
  | k1
  | k4
  | k16
  deriving DecidableEq, Repr

/-- Default policies, named by the policy codes 0 to 2 (Table 1-3). -/
inductive Policy where
  | refuse
  | readOpen
  | openAll
  deriving DecidableEq, Repr

/-- A pool record (R1, Table 1-1). -/
structure Pool where
  enabled : Bool
  base : Word
  /-- Size in granules. -/
  size : Nat
  granule : GranuleSize
  policy : Policy
  maxTerm : Nat
  deriving DecidableEq, Repr

/-! ### Lease table (Section 2) -/

/-- Lease modes. -/
inductive Mode where
  | shared
  | exclusive
  deriving DecidableEq, Repr

/-- The notice kinds kept in a lease's set or in an orphan field (R33). -/
inductive NoticeKind where
  | granted
  | warned
  | expired
  | tainted
  | revoked
  | delegated
  | returned
  | recalled
  deriving DecidableEq, Repr

/-- A range: `count` granules of `pool` from granule `first` on (R5). -/
structure Range where
  pool : PoolIx
  first : Nat
  count : Nat
  deriving DecidableEq, Repr

/-- The counts of a running term: granted term, remaining term and warned flag (R15, R30). -/
structure Term where
  granted : Nat
  remaining : Nat
  warned : Bool
  deriving DecidableEq, Repr

/-- A sharer entry (R30). -/
structure Sharer where
  master : Mid
  tag : Tag
  term : Term
  deriving DecidableEq, Repr

/-- Who holds a lease and how, with the fields that Table 2-1 makes present in that state and mode and no others.
Chains and sharer lists stand oldest first. -/
inductive Hold where
  /-- EXCLUSIVE in HELD. -/
  | held (owner : Mid) (tag : Tag) (term : Term) (chain : List Mid)
  /-- EXCLUSIVE in GRACE, with the grace remaining. -/
  | grace (owner : Mid) (tag : Tag) (term : Term) (chain : List Mid) (left : Nat)
  /-- EXCLUSIVE in TAINTED, with the former owner. -/
  | tainted (owner : Mid) (tag : Tag)
  /-- EXCLUSIVE in SCRUB, with the former owner. -/
  | scrub (owner : Mid) (tag : Tag)
  /-- SHARED, always in HELD. -/
  | shared (sharers : List Sharer)
  deriving DecidableEq, Repr

/-- The pending-notice set of a lease: at most one kind for each master (R33). -/
abbrev NoticeSet := Vector (Option NoticeKind) 8

/-- A lease: what a slot that is not FREE holds (R15). -/
structure Lease where
  range : Range
  hold : Hold
  notices : NoticeSet
  deriving DecidableEq, Repr

/-- A lease slot. The generation is present in every state; FREE is `lease = none` (R15). -/
structure Slot where
  gen : BitVec 8
  lease : Option Lease
  deriving DecidableEq, Repr

/-! ### Claim queue (Section 3) -/

/-- What a claim asks for, with its master, its tag and its clamped term. -/
structure Claim where
  master : Mid
  tag : Tag
  range : Range
  mode : Mode
  term : Nat
  deriving DecidableEq, Repr

/-- The state of a claim-queue entry. WAITING carries its wait remaining; ENDED carries the outcome TIMED_OUT,
the only one there is, and a wait remaining of 0 (Table 3-4). -/
inductive ClaimStatus where
  | waiting (left : Nat)
  | ended
  deriving DecidableEq, Repr

/-- A claim-queue entry (R54). -/
structure ClaimEntry where
  claim : Claim
  status : ClaimStatus
  deriving DecidableEq, Repr

/-! ### Master contexts (Section 7) -/

/-- States of a master (R126). -/
inductive MasterState where
  | detached
  | attached
  | fenced
  deriving DecidableEq, Repr

/-- The reasons of a refusal (Table 10-5). -/
inductive Reason where
  | fenced
  | tainted
  | lentAway
  | notHolder
  | readOnly
  | noLease
  deriving DecidableEq, Repr

/-- A refusal note (Table 7-1); `slot = none` is the slot "none". -/
structure Note where
  address : Word
  dir : Direction
  reason : Reason
  slot : Option SlotIx
  deriving DecidableEq, Repr

/-- An orphan notice (R145). -/
structure Orphan where
  handle : Handle
  kind : NoticeKind
  deriving DecidableEq, Repr

/-- A master record (R124). The supervisor flag is not here: it is set for the one MID that equals
`State.supmid` (R125), which is where it is stored. -/
structure Master where
  state : MasterState
  quota : Nat
  threshold : Nat
  held : Nat
  waiting : Nat
  violations : Nat
  note : Option Note
  orphan : Option Orphan
  deriving DecidableEq, Repr

/-! ### Time base (Section 4) -/

/-- The time base (Table 4-1). -/
structure TimeBase where
  divider : Nat
  warnLevel : Nat
  graceLength : Nat
  periodCount : Nat
  periodLength : Nat
  deriving DecidableEq, Repr

/-- Ticks that the time base has made and a block has not taken yet (R70), and how many it has made in all, which
only picks a free value. -/
structure Ticks where
  tableDue : Nat
  queueDue : Nat
  made : Nat
  deriving DecidableEq, Repr

/-! ### Scrub engine (Section 9) -/

/-- The state of a scrub-list entry with the fields Table 9-1 makes present in it. Progress is the byte address of
the next word to be written; it can stand one past the top of the address space, so it is a number. -/
inductive ScrubState where
  | queued (progress : Nat)
  | active (progress : Nat)
  | done
  | failed (address : Nat)
  deriving DecidableEq, Repr

/-- A scrub-list entry (R152). -/
structure ScrubEntry where
  handle : Handle
  state : ScrubState
  deriving DecidableEq, Repr

/-- A run in progress (R155): its limit, its word count, and whether BGNT has been withdrawn during it (R156). -/
structure Run where
  limit : Nat
  words : Nat
  withdrawn : Bool
  deriving DecidableEq, Repr

/-- A scrub write that has been placed on the bus and not answered: where, and the pattern it carries (R155). -/
structure Flight where
  address : Nat
  data : Word
  deriving DecidableEq, Repr

/-- The scrub engine (R152) with its link: BREQ, the level of BGNT, the run and the word in flight. -/
structure ScrubEngine where
  list : List ScrubEntry
  fill : Word
  runLength : Nat
  breq : Bool
  bgnt : Bool
  run : Option Run
  flight : Option Flight
  deriving DecidableEq, Repr

/-! ### Command window (Section 10) and the bus -/

/-- A master's slot of the command window (R165, R168): arguments, last code, result, code answered, sequence
count and answer values. -/
structure WindowSlot where
  arg0 : Word
  arg1 : Word
  arg2 : Word
  arg3 : Word
  lastCode : BitVec 8
  result : BitVec 8
  answered : BitVec 8
  seq : BitVec 8
  val0 : Word
  val1 : Word
  val2 : Word
  val3 : Word
  deriving DecidableEq, Repr

/-- Reset causes (Table 10-5). -/
inductive ResetCause where
  | power
  | pin
  | soft
  deriving DecidableEq, Repr

/-- A bus transaction of a master: the items of Table 6-1, and the data it writes. -/
structure Transaction where
  master : Mid
  address : Word
  dir : Direction
  size : Nat
  data : Word
  deriving DecidableEq, Repr

/-- How the part has answered the last bus transaction a master made, with the word it presents on the data lines of a
read; a write carries zero there (assumption log 10). -/
inductive BusResponse where
  /-- No transaction since the last power-on or pin reset. -/
  | idle
  /-- The access goes on to its target: ungoverned (R110) or passed by the judge (R118). -/
  | passed
  /-- The judge refused the access with the bus error response (R119), for this reason and naming this slot. -/
  | refused (reason : Reason) (slot : Option SlotIx) (data : Word)
  /-- The window completed the access with READY. -/
  | ready (data : Word)
  /-- The window answered with the bus error response (R166). -/
  | error (data : Word)
  deriving DecidableEq, Repr

/-- Everything the TL832 holds, and the queue of commands waiting to be taken. -/
structure State where
  pools : Vector Pool 4
  slots : Vector Slot 32
  /-- The claim queue, oldest first. -/
  queue : List ClaimEntry
  masters : Vector Master 8
  time : TimeBase
  ticks : Ticks
  scrub : ScrubEngine
  window : Vector WindowSlot 8
  /-- SUPMID as sampled at the last power-on or pin reset. -/
  supmid : Mid
  /-- WSEG as sampled at the last power-on or pin reset. -/
  wseg : BitVec 4
  cause : ResetCause
  /-- A power-on or pin reset is in progress (R110). -/
  inReset : Bool
  bus : BusResponse
  /-- Transactions that masters want while a scrub run holds the bus, in order: each is taken once the run has ended
  (R156, R162; assumption log 5). -/
  held : List Transaction
  /-- Commands waiting, first in, first out. -/
  pending : List Instr
  deriving DecidableEq, Repr

/-- The TL832 never stops with a fault: the spec gives every command an effect in every state. -/
inductive Fault where
  deriving DecidableEq, Repr

/-- The reasons for which a command has no meaning in the model. -/
inductive Refusal where
  /-- Raised by an arm of `exec` for a command the model does not cover yet. Safe: nothing is claimed of it. No arm
  raises it now. -/
  | notModelled (mnemonic : String)
  deriving DecidableEq, Repr

/-! ### Reset values -/

/-- A pool record after a power-on or pin reset (R2). -/
def Pool.reset : Pool :=
  { enabled := false, base := 0, size := 1, granule := .b256, policy := .refuse, maxTerm := 65535 }

/-- A lease slot after a power-on or pin reset (R40). -/
def Slot.reset : Slot := { gen := 0, lease := none }

/-- A master record after a power-on or pin reset (R143). -/
def Master.reset : Master :=
  { state := .detached, quota := 8, threshold := 4, held := 0, waiting := 0, violations := 0, note := none,
    orphan := none }

/-- The time base after a power-on or pin reset (R73). -/
def TimeBase.reset : TimeBase :=
  { divider := 15999, warnLevel := 8, graceLength := 4, periodCount := 0, periodLength := 16000 }

/-- The scrub engine after a power-on or pin reset (R163), BGNT being the arbiter's to drive. -/
def ScrubEngine.reset (bgnt : Bool) : ScrubEngine :=
  { list := [], fill := 0, runLength := 16, breq := false, bgnt := bgnt, run := none, flight := none }

/-- A window slot after a power-on or pin reset (R173). -/
def WindowSlot.reset : WindowSlot :=
  { arg0 := 0, arg1 := 0, arg2 := 0, arg3 := 0, lastCode := 0, result := 0, answered := 0, seq := 0, val0 := 0,
    val1 := 0, val2 := 0, val3 := 0 }

/-- The empty pending-notice set. -/
def NoticeSet.empty : NoticeSet := Vector.replicate 8 none

/-- The machine right after a power-on reset that has ended. SUPMID, WSEG and BGNT are inputs the spec gives no
value for: DESIGN CHOICE 0, 0 and deasserted (assumption log 3). -/
def State.reset : State :=
  { pools := Vector.replicate 4 Pool.reset
    slots := Vector.replicate 32 Slot.reset
    queue := []
    masters := Vector.replicate 8 Master.reset
    time := TimeBase.reset
    ticks := { tableDue := 0, queueDue := 0, made := 0 }
    scrub := ScrubEngine.reset false
    window := Vector.replicate 8 WindowSlot.reset
    supmid := 0
    wseg := 0
    cause := .power
    inReset := false
    bus := .idle
    held := []
    pending := [] }

end Sys2Proof.Machine
end

