-- ==== Sys2Proof/Machine/Operands.lean ====
section
/-! DEFINITION. What a command names: the request codes of Table 10-2 and the argument fields of Table 10-4. -/

namespace Sys2Proof.Machine

/-- The number in the `width` bits of `w` from bit `lo` up. -/
def field (w : Word) (lo width : Nat) : Nat := (w.extractLsb' lo width).toNat

/-- The twenty-six requests of Table 10-2. -/
inductive Request where
  | attach | detach | claim | cancel | renew | release | downgrade | upgrade | lend | giveBack | recall
  | nextNotice | inspect | status | setPool | setTiming | setMaster | setFill | fence | unfence | clearNote
  | revoke | scrub | clear | adopt | softReset
  deriving DecidableEq, Repr

/-- The code of a request (Table 10-2). -/
def Request.code : Request → BitVec 8
  | .attach => 0x01#8
  | .detach => 0x02#8
  | .claim => 0x10#8
  | .cancel => 0x11#8
  | .renew => 0x12#8
  | .release => 0x13#8
  | .downgrade => 0x14#8
  | .upgrade => 0x15#8
  | .lend => 0x18#8
  | .giveBack => 0x19#8
  | .recall => 0x1A#8
  | .nextNotice => 0x20#8
  | .inspect => 0x21#8
  | .status => 0x22#8
  | .setPool => 0x40#8
  | .setTiming => 0x41#8
  | .setMaster => 0x42#8
  | .setFill => 0x43#8
  | .fence => 0x48#8
  | .unfence => 0x49#8
  | .clearNote => 0x4A#8
  | .revoke => 0x50#8
  | .scrub => 0x51#8
  | .clear => 0x52#8
  | .adopt => 0x53#8
  | .softReset => 0x5F#8

/-- The request of a code, if Table 10-2 has the code. -/
def Request.ofCode (code : BitVec 8) : Option Request :=
  match code.toNat with
  | 0x01 => some .attach
  | 0x02 => some .detach
  | 0x10 => some .claim
  | 0x11 => some .cancel
  | 0x12 => some .renew
  | 0x13 => some .release
  | 0x14 => some .downgrade
  | 0x15 => some .upgrade
  | 0x18 => some .lend
  | 0x19 => some .giveBack
  | 0x1A => some .recall
  | 0x20 => some .nextNotice
  | 0x21 => some .inspect
  | 0x22 => some .status
  | 0x40 => some .setPool
  | 0x41 => some .setTiming
  | 0x42 => some .setMaster
  | 0x43 => some .setFill
  | 0x48 => some .fence
  | 0x49 => some .unfence
  | 0x4A => some .clearNote
  | 0x50 => some .revoke
  | 0x51 => some .scrub
  | 0x52 => some .clear
  | 0x53 => some .adopt
  | 0x5F => some .softReset
  | _ => none

/-- The granule size of a two-bit granule code (Table 1-2). -/
def GranuleSize.ofCode (code : Nat) : GranuleSize :=
  match code with
  | 0 => .b256
  | 1 => .k1
  | 2 => .k4
  | _ => .k16

/-- The policy of a two-bit policy code; 3 is not a policy (Table 1-3). -/
def Policy.ofCode (code : Nat) : Option Policy :=
  match code with
  | 0 => some .refuse
  | 1 => some .readOpen
  | 2 => some .openAll
  | _ => none

/-- The arguments of CLAIM as they are written (Table 3-1), the term not yet clamped. -/
structure ClaimArgs where
  range : Range
  mode : Mode
  tag : Tag
  term : Nat
  wait : Nat
  deriving DecidableEq, Repr

/-- The arguments of SET POOL (1.4); `policy` is the policy code. -/
structure PoolArgs where
  pool : PoolIx
  enabled : Bool
  base : Word
  size : Nat
  granule : GranuleSize
  policy : Nat
  maxTerm : Nat
  deriving DecidableEq, Repr

namespace WindowSlot

/-! The argument fields of a slot, each as Table 10-4 places it. -/

/-- CLAIM. -/
def claimArgs (w : WindowSlot) : ClaimArgs :=
  { range :=
      { pool := Fin.ofNat 4 (field w.arg0 0 2), first := field w.arg1 0 16, count := field w.arg1 16 13 }
    mode := if field w.arg0 4 1 = 1 then .exclusive else .shared
    tag := w.arg0.extractLsb' 8 8
    term := field w.arg2 0 16
    wait := field w.arg2 16 16 }

/-- The tag of CANCEL. -/
def argTag (w : WindowSlot) : Tag := w.arg0.extractLsb' 8 8

/-- The handle of every request that names one. -/
def argHandle (w : WindowSlot) : Handle := w.arg0.extractLsb' 0 16

/-- The new term of RENEW. -/
def argTerm (w : WindowSlot) : Nat := field w.arg1 0 16

/-- The delegate of LEND. -/
def argDelegate (w : WindowSlot) : Mid := Fin.ofNat 8 (field w.arg1 0 3)

/-- The slot number of INSPECT. -/
def argSlot (w : WindowSlot) : Nat := field w.arg0 0 8

/-- The selector of INSPECT. -/
def argSelector (w : WindowSlot) : Nat := field w.arg0 8 8

/-- SET POOL. -/
def poolArgs (w : WindowSlot) : PoolArgs :=
  { pool := Fin.ofNat 4 (field w.arg0 0 2)
    enabled := field w.arg0 4 1 = 1
    base := w.arg1
    size := field w.arg2 0 17
    granule := GranuleSize.ofCode (field w.arg0 8 2)
    policy := field w.arg0 12 2
    maxTerm := field w.arg3 0 16 }

/-- The divider value of SET TIMING. -/
def argDivider (w : WindowSlot) : Nat := field w.arg0 0 16

/-- The warn level of SET TIMING. -/
def argWarnLevel (w : WindowSlot) : Nat := field w.arg1 0 8

/-- The grace length of SET TIMING. -/
def argGraceLength (w : WindowSlot) : Nat := field w.arg1 8 8

/-- The master of SET MASTER, FENCE, UNFENCE and CLEAR NOTE. -/
def argMaster (w : WindowSlot) : Mid := Fin.ofNat 8 (field w.arg0 0 3)

/-- The quota of SET MASTER. -/
def argQuota (w : WindowSlot) : Nat := field w.arg0 8 6

/-- The threshold of SET MASTER. -/
def argThreshold (w : WindowSlot) : Nat := field w.arg0 16 4

/-- The fill pattern of SET FILL. -/
def argFill (w : WindowSlot) : Word := w.arg0

/-- The run length of SET FILL. -/
def argRunLength (w : WindowSlot) : Nat := field w.arg1 0 7

end WindowSlot

end Sys2Proof.Machine
end

