-- ==== Sys2Proof/Machine/Ops.lean ====
section
/-! DEFINITION. The named operations over the state that every meaning is written with: granule arithmetic, the
records and their updates, handles, roles, notices, freeing and tainting. -/

namespace Sys2Proof.Machine

/-! ### Granules and ranges (1.2) -/

/-- Bytes per granule (Table 1-2). -/
def GranuleSize.bytes : GranuleSize → Nat
  | .b256 => 256
  | .k1 => 1024
  | .k4 => 4096
  | .k16 => 16384

/-- The address just past the extent of a pool (R4). -/
def Pool.top (p : Pool) : Nat := p.base.toNat + p.size * p.granule.bytes

/-- The address lies in the extent of the pool (R4). -/
def Pool.contains (p : Pool) (a : Word) : Bool := p.base.toNat ≤ a.toNat && a.toNat < p.top

/-- The granule an address of the extent lies in (R4). -/
def Pool.granuleOf (p : Pool) (a : Word) : Nat := (a.toNat - p.base.toNat) / p.granule.bytes

/-- The spans `[b, t)` and `[b', t')` share a byte: each begins before the other ends (R12). -/
def spansMeet (b t b' t' : Nat) : Bool := b < t' && b' < t

/-- Two ranges overlap: the same pool and at least one granule in common (R5). -/
def Range.overlaps (r q : Range) : Bool :=
  r.pool = q.pool && max r.first q.first < min (r.first + r.count) (q.first + q.count)

/-- The range includes that granule of that pool (R24). -/
def Range.covers (r : Range) (p : PoolIx) (g : Nat) : Bool :=
  r.pool = p && r.first ≤ g && g < r.first + r.count

/-- The byte address of the first word of a range of the pool (R5). -/
def Pool.spanStart (p : Pool) (r : Range) : Nat := p.base.toNat + r.first * p.granule.bytes

/-- The byte address just past the last word of a range of the pool (R5). -/
def Pool.spanEnd (p : Pool) (r : Range) : Nat := p.base.toNat + (r.first + r.count) * p.granule.bytes

/-- The 32-bit words of a range of the pool (R5). -/
def Pool.spanWords (p : Pool) (r : Range) : Nat := r.count * p.granule.bytes / 4

/-! ### The numbers of the records, in rising order -/

/-- All lease slots, 0 to 31. -/
def allSlots : List SlotIx := List.finRange 32

/-- All masters, 0 to 7. -/
def allMasters : List Mid := List.finRange 8

/-- All pools, 0 to 3. -/
def allPools : List PoolIx := List.finRange 4

/-! ### Reading and replacing one record -/

namespace State

/-- The record of pool `p`. -/
def pool (s : State) (p : PoolIx) : Pool := s.pools[p]

/-- The record of slot `k`. -/
def slot (s : State) (k : SlotIx) : Slot := s.slots[k]

/-- The lease of slot `k`; `none` is FREE. -/
def lease (s : State) (k : SlotIx) : Option Lease := (s.slot k).lease

/-- The record of master `m`. -/
def master (s : State) (m : Mid) : Master := s.masters[m]

/-- The window slot of master `m`. -/
def win (s : State) (m : Mid) : WindowSlot := s.window[m]

def setPool (s : State) (p : PoolIx) (x : Pool) : State := { s with pools := s.pools.set p x }
def setSlot (s : State) (k : SlotIx) (x : Slot) : State := { s with slots := s.slots.set k x }
def setMaster (s : State) (m : Mid) (x : Master) : State := { s with masters := s.masters.set m x }
def setWin (s : State) (m : Mid) (x : WindowSlot) : State := { s with window := s.window.set m x }
def setQueue (s : State) (q : List ClaimEntry) : State := { s with queue := q }
def setTime (s : State) (t : TimeBase) : State := { s with time := t }
def setTicks (s : State) (t : Ticks) : State := { s with ticks := t }
def setScrub (s : State) (e : ScrubEngine) : State := { s with scrub := e }
def setBus (s : State) (b : BusResponse) : State := { s with bus := b }
def setHeld (s : State) (q : List Transaction) : State := { s with held := q }
def setPending (s : State) (q : List Instr) : State := { s with pending := q }

/-- Give slot `k` this lease, keeping its generation. -/
def setLease (s : State) (k : SlotIx) (l : Lease) : State := s.setSlot k { s.slot k with lease := some l }

/-- Change every lease slot by `f`. -/
def mapSlots (s : State) (f : Slot → Slot) : State :=
  { s with slots := Vector.ofFn fun k : Fin 32 => f s.slots[k] }

/-- Change every master record by `f`, which also sees whose it is. -/
def mapMasters (s : State) (f : Mid → Master → Master) : State :=
  { s with masters := Vector.ofFn fun m : Fin 8 => f m s.masters[m] }

/-- Change every window slot by `f`. -/
def mapWins (s : State) (f : WindowSlot → WindowSlot) : State :=
  { s with window := Vector.ofFn fun m : Fin 8 => f s.window[m] }

/-! ### Masters -/

/-- `m` is ATTACHED. -/
def attached (s : State) (m : Mid) : Bool := (s.master m).state = .attached

/-- `m` is FENCED. -/
def fenced (s : State) (m : Mid) : Bool := (s.master m).state = .fenced

/-- `m` is the supervisor: its supervisor flag is set (R125). -/
def isSupervisor (s : State) (m : Mid) : Bool := m = s.supmid

/-- Raise the held count of `m` by one (R128). -/
def raiseHeld (s : State) (m : Mid) : State :=
  s.setMaster m { s.master m with held := (s.master m).held + 1 }

/-- Lower the held count of `m` by one (R128). -/
def lowerHeld (s : State) (m : Mid) : State :=
  s.setMaster m { s.master m with held := (s.master m).held - 1 }

/-- Raise the waiting count of `m` by one (R128). -/
def raiseWaiting (s : State) (m : Mid) : State :=
  s.setMaster m { s.master m with waiting := (s.master m).waiting + 1 }

/-- Lower the waiting count of `m` by one (R128). -/
def lowerWaiting (s : State) (m : Mid) : State :=
  s.setMaster m { s.master m with waiting := (s.master m).waiting - 1 }

end State

/-! ### Handles (2.3) -/

/-- The handle of slot `k` at generation `gen` (Table 2-4). -/
def handleOf (gen : BitVec 8) (k : SlotIx) : Handle := gen ++ (0#3 ++ BitVec.ofNat 5 k.val)

/-- The slot number in a handle. -/
def Handle.slot (h : Handle) : SlotIx := Fin.ofNat 32 (h.extractLsb' 0 5).toNat

/-- The generation in a handle. -/
def Handle.gen (h : Handle) : BitVec 8 := h.extractLsb' 8 8

/-- Bits 7:5 of a handle. -/
def Handle.middle (h : Handle) : BitVec 3 := h.extractLsb' 5 3

namespace State

/-- The handle of slot `k` as it stands. -/
def handle (s : State) (k : SlotIx) : Handle := handleOf (s.slot k).gen k

/-- The handle check of R22: the slot and the lease a handle names, or `none` for STALE. -/
def lookup (s : State) (h : Handle) : Option (SlotIx × Lease) :=
  if Handle.middle h = 0 ∧ Handle.gen h = (s.slot (Handle.slot h)).gen then
    (s.lease (Handle.slot h)).map fun l => (Handle.slot h, l)
  else none

end State

/-! ### Owner, current user and roles (2.5) -/

/-- The five slot states (R17). -/
inductive SlotState where
  | free
  | held
  | grace
  | tainted
  | scrub
  deriving DecidableEq, Repr

/-- Roles of a master in a lease (Table 2-5). -/
inductive Role where
  | ownerUser
  | ownerLent
  | lastDelegate
  | delegateLentOn
  | formerOwner
  | sharer
  | outsider
  deriving DecidableEq, Repr

namespace Hold

/-- The state of a slot held so. -/
def state : Hold → SlotState
  | .held .. => .held
  | .grace .. => .grace
  | .tainted .. => .tainted
  | .scrub .. => .scrub
  | .shared _ => .held

/-- The mode of the lease. -/
def mode : Hold → Mode
  | .shared _ => .shared
  | _ => .exclusive

/-- EXCLUSIVE in HELD or GRACE. -/
def live : Hold → Bool
  | .held .. => true
  | .grace .. => true
  | _ => false

/-- TAINTED or SCRUB. -/
def closed : Hold → Bool
  | .tainted .. => true
  | .scrub .. => true
  | _ => false

/-- The owner of a lease held in its own right: EXCLUSIVE in HELD or GRACE (R27). -/
def owner? : Hold → Option Mid
  | .held o .. => some o
  | .grace o .. => some o
  | _ => none

/-- The delegation chain; empty where there is none. -/
def chain : Hold → List Mid
  | .held _ _ _ c => c
  | .grace _ _ _ c _ => c
  | _ => []

/-- Replace the delegation chain of a lease in HELD or GRACE. -/
def withChain (h : Hold) (c : List Mid) : Hold :=
  match h with
  | .held o t n _ => .held o t n c
  | .grace o t n _ g => .grace o t n c g
  | h => h

/-- The sharer list; empty where there is none. -/
def sharers : Hold → List Sharer
  | .shared l => l
  | _ => []

/-- The master whose accesses an EXCLUSIVE lease in HELD or GRACE passes: its youngest frame, or the owner (R28). -/
def currentUser? (h : Hold) : Option Mid :=
  match h.owner? with
  | none => none
  | some o => some (h.chain.getLast?.getD o)

/-- `m` has an entry on the sharer list. -/
def shares (h : Hold) (m : Mid) : Bool := h.sharers.any fun e => e.master = m

/-- The role of `m` (R29). -/
def role (h : Hold) (m : Mid) : Role :=
  match h with
  | .held o _ _ c => exclusiveRole o c
  | .grace o _ _ c _ => exclusiveRole o c
  | .tainted o _ => if m = o then .formerOwner else .outsider
  | .scrub o _ => if m = o then .formerOwner else .outsider
  | .shared l => if l.any fun e => e.master = m then .sharer else .outsider
where
  /-- The first four rows of Table 2-5, and the last. -/
  exclusiveRole (o : Mid) (c : List Mid) : Role :=
    if m = o then (if c = [] then .ownerUser else .ownerLent)
    else if c.getLast? = some m then .lastDelegate
    else if m ∈ c then .delegateLentOn
    else .outsider

/-- `m` holds a role other than former owner (R45, R62). -/
def holdsRole (h : Hold) (m : Mid) : Bool := h.role m ≠ .outsider && h.role m ≠ .formerOwner

/-- The masters whose held count the lease stands in, once for each time it does (R128). -/
def holders : Hold → List Mid
  | .held o .. => [o]
  | .grace o .. => [o]
  | .shared l => l.map Sharer.master
  | _ => []

/-- The lease as TAINTED keeps it: the former owner and the owner tag, without chain, terms and grace (R20). A
lease that is not EXCLUSIVE in HELD or GRACE is left as it is. -/
def taint : Hold → Hold
  | .held o t _ _ => .tainted o t
  | .grace o t _ _ _ => .tainted o t
  | h => h

end Hold

/-- The state of a slot. -/
def Slot.state (x : Slot) : SlotState :=
  match x.lease with
  | none => .free
  | some l => l.hold.state

/-- The mode of the lease in a slot; a FREE slot reports zero, which is the code of SHARED (R15). -/
def Slot.mode (x : Slot) : Mode :=
  match x.lease with
  | none => .shared
  | some l => l.hold.mode

namespace State

/-! ### Notices (2.7) -/

/-- Raise a notice of that kind for `m` in the set of slot `k`, replacing the one it holds for `m`; for a master
that is not ATTACHED none is raised (R33). -/
def notify (s : State) (k : SlotIx) (n : NoticeKind) (m : Mid) : State :=
  if s.attached m then
    match s.lease k with
    | none => s
    | some l => s.setLease k { l with notices := l.notices.set m (some n) }
  else s

/-- Raise a notice of that kind for each of these masters. -/
def notifyAll (s : State) (k : SlotIx) (n : NoticeKind) (ms : List Mid) : State :=
  ms.foldl (fun s m => s.notify k n m) s

/-- Remove `m`'s entry from the set of slot `k`. -/
def dropNotice (s : State) (k : SlotIx) (m : Mid) : State :=
  match s.lease k with
  | none => s
  | some l => s.setLease k { l with notices := l.notices.set m none }

/-- A slot without `m`'s entry in its set. -/
def slotWithoutNotice (m : Mid) (x : Slot) : Slot :=
  { x with lease := x.lease.map fun l => { l with notices := l.notices.set m none } }

/-- Remove `m`'s entry from the set of every slot and clear its orphan notice (R131, R137). -/
def dropAllNotices (s : State) (m : Mid) : State :=
  let s := s.mapSlots (slotWithoutNotice m)
  s.setMaster m { s.master m with orphan := none }

/-- Move every entry of a notice set to its master's orphan field with the handle `h` (R34). -/
def moveToOrphans (s : State) (h : Handle) (ns : NoticeSet) : State :=
  s.mapMasters fun m x =>
    match ns[m] with
    | none => x
    | some n => { x with orphan := some { handle := h, kind := n } }

/-! ### Entering FREE and TAINTED (2.2) -/

/-- Slot `k` enters FREE (R19): its notices move to the orphan fields under the handle it had, everything but the
generation becomes absent, and the held count of whoever still holds it is lowered. The grant pass, where one
follows, is the event's. -/
def freeSlot (s : State) (k : SlotIx) : State :=
  match s.lease k with
  | none => s
  | some l =>
    let s := s.moveToOrphans (s.handle k) l.notices
    let s := s.setSlot k { s.slot k with lease := none }
    l.hold.holders.foldl lowerHeld s

/-- The EXCLUSIVE lease of slot `k` enters TAINTED from HELD or GRACE (R20). The notices are the event's. -/
def taintSlot (s : State) (k : SlotIx) : State :=
  match s.lease k with
  | none => s
  | some l =>
    match l.hold.owner? with
    | none => s
    | some o => (s.setLease k { l with hold := l.hold.taint }).lowerHeld o

/-- End the membership of `m` in the SHARED lease of slot `k`: its entry leaves the list, its held count is lowered,
and a list left empty frees the slot (R30, R31). -/
def endMembership (s : State) (k : SlotIx) (m : Mid) : State :=
  match s.lease k with
  | none => s
  | some l =>
    if l.hold.shares m then
      let rest := l.hold.sharers.filter fun e => e.master ≠ m
      let s := (s.setLease k { l with hold := .shared rest }).lowerHeld m
      if rest = [] then s.freeSlot k else s
    else s

/-! ### Lookups over the lease table (2.4) -/

/-- The lowest-numbered slot whose lease satisfies `f`. -/
def findLease (s : State) (f : Lease → Bool) : Option SlotIx :=
  allSlots.find? fun k => (s.lease k).any f

/-- The number of leases that satisfy `f`. -/
def countLeases (s : State) (f : Lease → Bool) : Nat :=
  allSlots.countP fun k => (s.lease k).any f

/-- The lowest-numbered FREE slot (R18). -/
def findFree (s : State) : Option SlotIx := allSlots.find? fun k => s.lease k = none

/-! ### Taking bus transactions -/

/-- The scrub engine holds the bus: a run is in progress, and no master's transaction is on the bus (R156). -/
def busHeld (s : State) : Bool := s.scrub.run.isSome

/-- A transaction that a master wants while the scrub engine holds the bus waits behind those that wait already
(R156, R162). -/
def hold (s : State) (x : Transaction) : State := s.setHeld (s.held ++ [x])

end State

end Sys2Proof.Machine
end

