-- ==== Sys2Proof/Machine/Flags.lean ====
section
/-! DEFINITION. What the part shows: the codes of Tables 10-3 and 10-5, the packing of answer words, the pending
items and the attention lines, the context word MSTAT, the status page and the words a window read presents. -/

namespace Sys2Proof.Machine

/-! ### Codes -/

/-- Results of a request (Table 10-3). -/
inductive Result where
  | ok | late | queued | unknownRequest | notAttached | alreadyAttached | fenced | notSupervisor | badPool
  | badRange | badTerm | badMaster | stale | notOwner | notUser | wrongMode | wrongState | lent | notLent | depth
  | inChain | sharedBusy | conflict | noSlot | queueFull | limit | quota | selfOverlap | noClaim | noNotice
  | listFull | scrubbing | poolBusy | badConfig | notAllowed | dupTag
  deriving DecidableEq, Repr

/-- Result codes (Table 10-3). -/
def Result.code : Result → BitVec 8
  | .ok => 0
  | .late => 1
  | .queued => 2
  | .unknownRequest => 16
  | .notAttached => 17
  | .alreadyAttached => 18
  | .fenced => 19
  | .notSupervisor => 20
  | .badPool => 21
  | .badRange => 22
  | .badTerm => 23
  | .badMaster => 24
  | .stale => 25
  | .notOwner => 26
  | .notUser => 27
  | .wrongMode => 28
  | .wrongState => 29
  | .lent => 30
  | .notLent => 31
  | .depth => 32
  | .inChain => 33
  | .sharedBusy => 34
  | .conflict => 35
  | .noSlot => 36
  | .queueFull => 37
  | .limit => 38
  | .quota => 39
  | .selfOverlap => 40
  | .noClaim => 41
  | .noNotice => 42
  | .listFull => 43
  | .scrubbing => 44
  | .poolBusy => 45
  | .badConfig => 46
  | .notAllowed => 47
  | .dupTag => 48

/-- Lease state codes (Table 10-5). -/
def SlotState.code : SlotState → Nat
  | .free => 0
  | .held => 1
  | .grace => 2
  | .tainted => 3
  | .scrub => 4

/-- Mode codes (Table 10-5). -/
def Mode.code : Mode → Nat
  | .shared => 0
  | .exclusive => 1

/-- Master state codes (Table 10-5). -/
def MasterState.code : MasterState → Nat
  | .detached => 0
  | .attached => 1
  | .fenced => 2

/-- Claim entry state codes (Table 10-5). -/
def ClaimStatus.code : ClaimStatus → Nat
  | .waiting _ => 1
  | .ended => 2

/-- Refusal reason codes (Table 10-5). -/
def Reason.code : Reason → Nat
  | .fenced => 1
  | .tainted => 2
  | .lentAway => 3
  | .notHolder => 4
  | .readOnly => 5
  | .noLease => 6

/-- Direction codes (Table 10-5). -/
def dirCode : Direction → Nat
  | .read => 0
  | .write => 1

/-- Notice kind codes (Table 10-5); TIMED_OUT, SCRUBBED and SCRUB_FAILED are 9, 10 and 11. -/
def NoticeKind.code : NoticeKind → Nat
  | .granted => 1
  | .warned => 2
  | .expired => 3
  | .tainted => 4
  | .revoked => 5
  | .delegated => 6
  | .returned => 7
  | .recalled => 8

/-- Reset cause codes (Table 10-5). -/
def ResetCause.code : ResetCause → Nat
  | .power => 1
  | .pin => 2
  | .soft => 3

/-- A slot as an answer reports it, "none" being 32 (R169). -/
def slotCode : Option SlotIx → Nat
  | none => 32
  | some k => k.val

/-- 1 for true, 0 for false. -/
def flag (b : Bool) : Nat := if b then 1 else 0

/-! ### Answer words -/

/-- A word holding the low `width` bits of `v` from bit `lo` up and zero elsewhere. -/
def place (v lo width : Nat) : Word := BitVec.ofNat 32 (v % 2 ^ width * 2 ^ lo)

/-- A number as a whole word. -/
def word (v : Nat) : Word := BitVec.ofNat 32 v

/-- The answer of a request: its result and its four value words (R169). -/
structure Answer where
  result : Result
  val0 : Word
  val1 : Word
  val2 : Word
  val3 : Word
  deriving DecidableEq, Repr

/-- An answer whose value words all read zero. -/
def Answer.bare (r : Result) : Answer := { result := r, val0 := 0, val1 := 0, val2 := 0, val3 := 0 }

/-- An answer that reports up to four items, one per word in the order given (R169). -/
def Answer.items (r : Result) (v0 : Nat) (v1 v2 v3 : Nat := 0) : Answer :=
  { result := r, val0 := word v0, val1 := word v1, val2 := word v2, val3 := word v3 }

/-! ### Pending items and attention lines (Section 8) -/

/-- An entry of `m` that is ENDED. -/
def ClaimEntry.endedOf (m : Mid) (e : ClaimEntry) : Bool := e.claim.master = m && e.status = .ended

/-- The entry is WAITING. -/
def ClaimEntry.isWaiting (e : ClaimEntry) : Bool :=
  match e.status with
  | .waiting _ => true
  | .ended => false

/-- QUEUED or ACTIVE (R152). -/
def ScrubState.live : ScrubState → Bool
  | .queued _ => true
  | .active _ => true
  | _ => false

/-- ACTIVE. -/
def ScrubState.isActive : ScrubState → Bool
  | .active _ => true
  | _ => false

/-- DONE or FAILED (R152). -/
def ScrubEntry.finished (e : ScrubEntry) : Bool := !e.state.live

namespace State

/-- The number of `m`'s pending items, over the four places of Table 8-2 (R144). -/
def pendingItems (s : State) (m : Mid) : Nat :=
  flag (s.master m).orphan.isSome
    + s.queue.countP (ClaimEntry.endedOf m)
    + s.countLeases (fun l => l.notices[m].isSome)
    + (if s.isSupervisor m then s.scrub.list.countP ScrubEntry.finished else 0)

/-- The level of line ATNm: asserted while `m` has any pending item (R150). -/
def atn (s : State) (m : Mid) : Bool := s.pendingItems m ≠ 0

/-! ### MSTAT (R170) -/

/-- The context word of `m` (Table 10-7). -/
def mstat (s : State) (m : Mid) : Word :=
  let x := s.master m
  place x.state.code 0 2 ||| place (flag (s.isSupervisor m)) 2 1 ||| place (flag (s.atn m)) 3 1
    ||| place x.threshold 4 4 ||| place x.quota 8 6 ||| place (flag x.orphan.isSome) 14 1
    ||| place (flag x.note.isSome) 15 1 ||| place x.held 16 6 ||| place x.waiting 24 3
    ||| place x.violations 28 4

end State

/-- The refusal note as VAL1 of a STATUS answer shows it (Table 10-6). -/
def noteWord (n : Option Note) : Word :=
  match n with
  | none => 0
  | some n =>
    place n.reason.code 0 3 ||| place (dirCode n.dir) 4 1 ||| place (slotCode n.slot) 8 6 ||| place 1 31 1

/-- The address of the refusal note, as VAL2 of a STATUS answer shows it (Table 10-6). -/
def noteAddress (n : Option Note) : Word :=
  match n with
  | none => 0
  | some n => n.address

namespace State

/-- The context a STATUS or ATTACH answer reports, under that result (R133, Table 10-6). -/
def context (s : State) (m : Mid) (r : Result) : Answer :=
  { result := r
    val0 := s.mstat m
    val1 := noteWord (s.master m).note
    val2 := noteAddress (s.master m).note
    val3 := 0 }

/-! ### The status page (R171) -/

/-- IDENT. -/
def identWord : Word := 0x7E10_0832#32

/-- Cause and straps (Table 10-8). -/
def causeWord (s : State) : Word :=
  place s.cause.code 0 2 ||| place s.supmid.val 4 3 ||| place s.wseg.toNat 8 4

/-- Live counts (Table 10-8). -/
def liveWord (s : State) : Word :=
  place (s.countLeases fun _ => true) 0 6 ||| place s.queue.length 8 5 ||| place s.scrub.list.length 16 4
    ||| place (flag (s.pool 0).enabled) 24 1 ||| place (flag (s.pool 1).enabled) 25 1
    ||| place (flag (s.pool 2).enabled) 26 1 ||| place (flag (s.pool 3).enabled) 27 1
    ||| place (flag s.scrub.breq) 28 1

/-- Timing (Table 10-8). -/
def timingWord (s : State) : Word :=
  place s.time.divider 0 16 ||| place s.time.warnLevel 16 8 ||| place s.time.graceLength 24 8

/-! ### Window reads (Table 10-1) -/

/-- The RESULT word of `m`'s slot. -/
def resultWord (w : WindowSlot) : Word :=
  place w.result.toNat 0 8 ||| place w.answered.toNat 8 8 ||| place w.seq.toNat 16 8

/-- The offsets that Table 10-1 assigns a word. -/
def assignedOffsets : List Nat :=
  [0x00, 0x04, 0x08, 0x0C, 0x10, 0x20, 0x24, 0x28, 0x2C, 0x30, 0x40, 0x80, 0x84, 0x88, 0x8C]

/-- The word an aligned 4-byte read by `m` at that window offset presents; an unassigned offset reads zero (R166). -/
def windowWord (s : State) (m : Mid) (offset : BitVec 8) : Word :=
  let w := s.win m
  match offset.toNat with
  | 0x00 => place w.lastCode.toNat 0 8
  | 0x04 => w.arg0
  | 0x08 => w.arg1
  | 0x0C => w.arg2
  | 0x10 => w.arg3
  | 0x20 => resultWord w
  | 0x24 => w.val0
  | 0x28 => w.val1
  | 0x2C => w.val2
  | 0x30 => w.val3
  | 0x40 => s.mstat m
  | 0x80 => identWord
  | 0x84 => s.causeWord
  | 0x88 => s.liveWord
  | 0x8C => s.timingWord
  | _ => 0

/-- The byte address of the command window (R165). -/
def windowBase (s : State) : Nat := s.wseg.toNat * 0x1000_0000 + 0x0FFF_FF00

end State

end Sys2Proof.Machine
end

