-- ==== Sys2Proof/Machine/Grant.lean ====
section
/-! DEFINITION. Grantability and the grant pass: the one test that serves the submission of a claim and the scan
of the waiting ones (3.2, 3.5). -/

namespace Sys2Proof.Machine

/-- A claim of that mode and range conflicts with a lease (R25). -/
def Lease.conflicts (l : Lease) (mode : Mode) (r : Range) : Bool :=
  l.range.overlaps r && (mode = .exclusive || l.hold.mode = .exclusive)

/-- Two claims conflict: their ranges overlap and one of them is EXCLUSIVE (R25). -/
def Claim.conflicts (c d : Claim) : Bool :=
  c.range.overlaps d.range && (c.mode = .exclusive || d.mode = .exclusive)

/-- Where a grantable claim goes (R47): onto the sharer list of a lease, or into a FREE slot. -/
inductive Place where
  | join (k : SlotIx)
  | fresh (k : SlotIx)
  deriving DecidableEq, Repr

/-- The slot of a grant. -/
def Place.slot : Place → SlotIx
  | .join k => k
  | .fresh k => k

/-- The lease is SHARED over exactly that range (R24). -/
def Lease.sharedOver (l : Lease) (r : Range) : Bool := l.hold.mode = .shared && l.range = r

/-- A sharer entry for a claim: both terms the clamped term, the warned flag clear (R48). -/
def Claim.sharer (c : Claim) : Sharer :=
  { master := c.master, tag := c.tag, term := { granted := c.term, remaining := c.term, warned := false } }

/-- The lease a claim is granted as (R49, Table 2-2). -/
def Claim.newLease (c : Claim) : Lease :=
  { range := c.range
    hold :=
      match c.mode with
      | .exclusive => .held c.master c.tag { granted := c.term, remaining := c.term, warned := false } []
      | .shared => .shared [c.sharer]
    notices := NoticeSet.empty }

/-- A SHARED lease with one more entry at the young end; any other lease is left as it is (R30). -/
def Lease.withSharer (l : Lease) (e : Sharer) : Lease :=
  match l.hold with
  | .shared es => { l with hold := .shared (es ++ [e]) }
  | _ => l

namespace State

/-- The lowest-numbered slot whose lease blocks the claim (R47, R52). -/
def blockingSlot (s : State) (c : Claim) : Option SlotIx :=
  s.findLease fun l => l.conflicts c.mode c.range

/-- How many of the older entries are WAITING and block the claim (R47, R52). A full queue can hold 16 of them, which an
answer reports as 16, although R52 gives the count as 0 to 15 (DEDUCED: assumption log 17). -/
def blockingCount (older : List ClaimEntry) (c : Claim) : Nat :=
  older.countP fun e => e.isWaiting && e.claim.conflicts c

/-- The SHARED lease a claim would join (R47). -/
def joinSlot (s : State) (c : Claim) : Option SlotIx :=
  if c.mode = .shared then s.findLease fun l => l.sharedOver c.range else none

/-- Where the claim has to go, if anywhere: without one it is short of a slot (R47). -/
def placeFor (s : State) (c : Claim) : Option Place :=
  match s.joinSlot c with
  | some k => some (.join k)
  | none => s.findFree.map Place.fresh

/-- The test of grantability (R47): the place of the claim when it is blocked in none of the three ways. -/
def grantable (s : State) (older : List ClaimEntry) (c : Claim) : Option Place :=
  if (s.blockingSlot c).isSome ∨ blockingCount older c ≠ 0 then none else s.placeFor c

/-- Join the claim to the lease there, or make its lease, and raise its master's held count (R48, R49). -/
def grantAt (s : State) (c : Claim) (p : Place) : State :=
  match p with
  | .join k =>
    match s.lease k with
    | none => s
    | some l => (s.setLease k (l.withSharer c.sharer)).raiseHeld c.master
  | .fresh k =>
    (s.setSlot k { gen := (s.slot k).gen + 1, lease := some c.newLease }).raiseHeld c.master

/-- The claim's range overlaps a lease in which its own master holds a role other than former owner (R45, R62). -/
def overlapsOwn (s : State) (c : Claim) : Option SlotIx :=
  s.findLease fun l => l.range.overlaps c.range && l.hold.holdsRole c.master

/-- The place a grant pass gives an entry, the entries in `older` having been passed over (R62). -/
def passPlace (s : State) (older : List ClaimEntry) (e : ClaimEntry) : Option Place :=
  if e.isWaiting then
    if (s.overlapsOwn e.claim).isSome then none else s.grantable older e.claim
  else none

/-- Grant an entry in a pass: the lease or membership, the two counts and the GRANTED notice (R63). -/
def grantInPass (s : State) (c : Claim) (p : Place) : State :=
  ((s.grantAt c p).lowerWaiting c.master).notify p.slot .granted c.master

/-- The scan of a grant pass, oldest to youngest (R62): `older` are the entries already passed over. -/
def grantScan : List ClaimEntry → List ClaimEntry → State → State
  | older, [], s => s.setQueue older
  | older, e :: rest, s =>
    match s.passPlace older e with
    | none => grantScan (older ++ [e]) rest s
    | some p => grantScan older rest (s.grantInPass e.claim p)

/-- The grant pass (R61, R62). -/
def grantPass (s : State) : State := grantScan [] s.queue s

end State

end Sys2Proof.Machine
end

