-- ==== Sys2Proof/Machine/Window.lean ====
section
/-! DEFINITION. How the window takes a request and presents its answer (10.2, 10.3), and the checks that stand
before a request's own (R127, R22). -/

namespace Sys2Proof.Machine

namespace State

/-- Record the request's code in the writer's slot and raise its sequence count (R167, steps 1 and 2). -/
def takeRequest (s : State) (m : Mid) (code : BitVec 8) : State :=
  s.setWin m { s.win m with lastCode := code, seq := (s.win m).seq + 1 }

/-- Write the result, the code answered and the value words into the writer's slot (R167, step 5). -/
def answer (s : State) (m : Mid) (code : BitVec 8) (a : Answer) : State :=
  s.setWin m
    { s.win m with
      result := a.result.code, answered := code, val0 := a.val0, val1 := a.val1, val2 := a.val2, val3 := a.val3 }

/-- The transaction of a master that reaches its window slot at that offset (R165). -/
def windowTransaction (s : State) (m : Mid) (offset : BitVec 8) (dir : Direction) (size : Nat) (data : Word) :
    Transaction :=
  { master := m, address := BitVec.ofNat 32 (s.windowBase + offset.toNat), dir := dir, size := size, data := data }

/-- The write of a request code to REQUEST by master `m` (R167). `body` is the request's own rule, run by its owning
block on the slot's arguments as they stand. During a power-on or pin reset the write gets the bus error response and
takes no request (R110); while the scrub engine holds the bus the write waits (R156). -/
def serveRequest (s : State) (m : Mid) (code : BitVec 8) (body : State → Mid → State × Answer) : State :=
  if s.busHeld then s.hold (s.windowTransaction m 0 .write 4 (code.setWidth 32))
  else if s.inReset then s.setBus (.error 0)
  else
    let done := body (s.takeRequest m code) m
    (done.1.answer m code done.2).setBus (.ready 0)

/-! ### Standing and handle checks -/

/-- The standing checks of a request any ATTACHED master may issue (R127, checks 1 and 2). -/
def standing (s : State) (m : Mid) : Option Answer :=
  if s.fenced m then some (.bare .fenced)
  else if s.attached m then none
  else some (.bare .notAttached)

/-- The standing checks of a supervisor request (R127, checks 1 to 3). -/
def supervisorStanding (s : State) (m : Mid) : Option Answer :=
  match s.standing m with
  | some a => some a
  | none => if s.isSupervisor m then none else some (.bare .notSupervisor)

/-- A request refused with that answer, or else carried out: a refused request changes nothing. -/
def unlessRefused (s : State) (refusal : Option Answer) (done : State × Answer) : State × Answer :=
  match refusal with
  | some a => (s, a)
  | none => done

/-- The standing checks, then the handle check of R22, then the request's own rule on the slot and lease named. -/
def onLease (s : State) (standing : Option Answer) (h : Handle) (stale : Answer)
    (rule : SlotIx → Lease → State × Answer) : State × Answer :=
  match standing with
  | some a => (s, a)
  | none =>
    match s.lookup h with
    | none => (s, stale)
    | some (k, l) => rule k l

end State

end Sys2Proof.Machine
end

