-- ==== Sys2Proof/Machine/Claims.lean ====
section
/-! DEFINITION. CLAIM and CANCEL, and the claim queue's handling of a tick (Section 3). -/

namespace Sys2Proof.Machine

/-! ### CLAIM -/

/-- A CLAIM answer (Table 10-6); what a result does not report is left zero. Every result reports the tag, FENCED and
NOT_ATTACHED too, as Table 3-3 has it (DEDUCED: assumption log 1). -/
def claimAnswer (r : Result) (tag : Nat) (handle joined term position slot count : Nat := 0)
    (further : Word := 0) : Answer :=
  { result := r
    val0 := place handle 0 16 ||| place joined 16 1
    val1 := place tag 0 8 ||| place term 16 16
    val2 := place position 0 5 ||| place slot 8 6 ||| place count 16 5
    val3 := further }

/-- The claim that the arguments make, the term clamped to the pool's maximum (R43, R8). -/
def State.clampedClaim (s : State) (m : Mid) (a : ClaimArgs) : Claim :=
  { master := m, tag := a.tag, range := a.range, mode := a.mode, term := min a.term (s.pool a.range.pool).maxTerm }

/-- The master's claim-queue entry of that tag, WAITING or ENDED (R44). -/
def State.entryOf (s : State) (m : Mid) (tag : Tag) : Option ClaimEntry :=
  s.queue.find? fun e => e.claim.master = m && e.claim.tag = tag

/-- The master's oldest WAITING entry whose range overlaps `r` (R45, R52). -/
def State.waitingOverlap (s : State) (m : Mid) (r : Range) : Option ClaimEntry :=
  s.queue.find? fun e => e.isWaiting && e.claim.master = m && e.claim.range.overlaps r

/-- How many claim-queue entries the master has, WAITING and ENDED together (R50). -/
def State.entriesOf (s : State) (m : Mid) : Nat := s.queue.countP fun e => e.claim.master = m

/-- Checks 1 to 8 of CLAIM: the answer of the first that fails (Table 3-2). -/
def claimRefusal (s : State) (m : Mid) (a : ClaimArgs) : Option Answer :=
  let tag := a.tag.toNat
  let p := s.pool a.range.pool
  let x := s.master m
  if s.fenced m then some (claimAnswer .fenced tag)
  else if !s.attached m then some (claimAnswer .notAttached tag)
  else if !p.enabled then some (claimAnswer .badPool tag)
  else if a.range.count = 0 ∨ 4096 < a.range.count ∨ p.size < a.range.first + a.range.count then
    some (claimAnswer .badRange tag)
  else if a.term = 0 then some (claimAnswer .badTerm tag)
  else
    match s.entryOf m a.tag with
    | some e => some (claimAnswer .dupTag tag (further := place e.status.code 0 8))
    | none =>
      match s.overlapsOwn (s.clampedClaim m a), s.waitingOverlap m a.range with
      | some k, _ => some (claimAnswer .selfOverlap tag (further := place k.val 0 8))
      | none, some e =>
        some (claimAnswer .selfOverlap tag (further := place 32 0 8 ||| place e.claim.tag.toNat 8 8))
      | none, none =>
        if x.quota ≤ x.held + x.waiting then
          some (claimAnswer .quota tag
            (further := place x.held 0 8 ||| place x.waiting 8 8 ||| place x.quota 16 8))
        else none

/-- Check 9 of CLAIM, the disposition (R47 to R51). NO_SLOT reports blocking slot 32 and blocking count 0, as the text of
R51 and R52 says, where Table 3-3 lists the tag alone (DESIGN CHOICE: assumption log 15). LIMIT and QUEUE_FULL report what
Table 3-3 lists for them and leave both fields zero (DEDUCED, against a wide reading of R51: assumption log 16). -/
def claimDispose (s : State) (c : Claim) (wait : Nat) : State × Answer :=
  let tag := c.tag.toNat
  let slot := slotCode (s.blockingSlot c)
  let count := State.blockingCount s.queue c
  match s.grantable s.queue c with
  | some p =>
    let t := s.grantAt c p
    let joined := match p with
      | .join _ => 1
      | .fresh _ => 0
    (t, claimAnswer .ok tag (handle := (t.handle p.slot).toNat) (joined := joined) (term := c.term))
  | none =>
    if 0 < wait then
      let further := place (s.entriesOf c.master) 0 8 ||| place s.queue.length 8 8
      if 4 ≤ s.entriesOf c.master then (s, claimAnswer .limit tag (further := further))
      else if 16 ≤ s.queue.length then (s, claimAnswer .queueFull tag (further := further))
      else
        ((s.setQueue (s.queue ++ [{ claim := c, status := .waiting wait }])).raiseWaiting c.master,
          claimAnswer .queued tag (term := c.term) (position := s.queue.length) (slot := slot) (count := count))
    else if (s.blockingSlot c).isSome ∨ count ≠ 0 then
      (s, claimAnswer .conflict tag (slot := slot) (count := count))
    else (s, claimAnswer .noSlot tag (slot := slot) (count := count))

/-- CLAIM (R42). -/
def claimRule (s : State) (m : Mid) : State × Answer :=
  let a := (s.win m).claimArgs
  s.unlessRefused (claimRefusal s m a) (claimDispose s (s.clampedClaim m a) a.wait)

def execClaim (m : Mid) (s : State) : Host.Outcome State Fault Refusal :=
  .next (s.serveRequest m Request.claim.code claimRule)

/-! ### CANCEL -/

/-- The entry is a WAITING one of that master and tag. -/
def ClaimEntry.waitingOf (m : Mid) (tag : Tag) (e : ClaimEntry) : Bool :=
  e.isWaiting && e.claim.master = m && e.claim.tag = tag

/-- The wait remaining of an entry; 0 in ENDED (Table 3-4). -/
def ClaimEntry.left (e : ClaimEntry) : Nat :=
  match e.status with
  | .waiting n => n
  | .ended => 0

/-- CANCEL (R59). -/
def cancelRule (s : State) (m : Mid) : State × Answer :=
  let tag := (s.win m).argTag
  s.unlessRefused (s.standing m) <|
    match s.queue.find? (ClaimEntry.waitingOf m tag) with
    | none => (s, .bare .noClaim)
    | some e =>
      let t := (s.setQueue (s.queue.eraseP (ClaimEntry.waitingOf m tag))).lowerWaiting m
      (t.grantPass, .items .ok tag.toNat e.left)

def execCancel (m : Mid) (s : State) : Host.Outcome State Fault Refusal :=
  .next (s.serveRequest m Request.cancel.code cancelRule)

/-! ### Wait limits -/

/-- The wait of a WAITING entry runs out on its next tick. -/
def ClaimEntry.runsOut (e : ClaimEntry) : Bool := e.isWaiting && e.left ≤ 1

/-- What one tick does to an entry: a WAITING one loses one tick of its wait and is ENDED when none is left
(R56, R57). -/
def ClaimEntry.tick (e : ClaimEntry) : ClaimEntry :=
  match e.status with
  | .waiting n => { e with status := if n ≤ 1 then .ended else .waiting (n - 1) }
  | .ended => e

/-- The claim queue's handling of a tick (R56, R57): every wait is lowered, the masters of the entries that end lose
a waiting count each, and one grant pass follows when any ended. -/
def State.queueTick (s : State) : State :=
  let ending := s.queue.filter ClaimEntry.runsOut
  let t := s.setQueue (s.queue.map ClaimEntry.tick)
  let t := ending.foldl (fun t e => t.lowerWaiting e.claim.master) t
  if ending = [] then t else t.grantPass

/-- The claim queue takes a tick, one of those delivered to it if there is one (R70). -/
def State.takeQueueTick (s : State) : State :=
  (s.setTicks { s.ticks with queueDue := s.ticks.queueDue - 1 }).queueTick

/-- CLAIM_QUEUE_TICK (R56). -/
def execClaimQueueTick (s : State) : Host.Outcome State Fault Refusal := .next s.takeQueueTick

/-- The WAITING entry of that master and tag, on its last tick of wait. -/
def ClaimEntry.expiring (m : Mid) (tag : Tag) (e : ClaimEntry) : Bool :=
  e.runsOut && e.claim.master = m && e.claim.tag = tag

/-- WAIT_LIMIT_EXPIRY (R57): the wait remaining of the entry reaches 0, so it becomes ENDED with outcome TIMED_OUT, and a
grant pass runs. With no such entry on its last tick the event does not occur (assumption log 6). -/
def execWaitLimitExpiry (m : Mid) (tag : Tag) (s : State) : Host.Outcome State Fault Refusal :=
  .next <|
    if s.queue.any (ClaimEntry.expiring m tag) then
      let end_ := fun e : ClaimEntry => if e.expiring m tag then { e with status := .ended } else e
      ((s.setQueue (s.queue.map end_)).lowerWaiting m).grantPass
    else s

end Sys2Proof.Machine
end

