-- ==== Sys2Proof/Machine/Terms.lean ====
section
/-! DEFINITION. The time base, terms, warnings, grace and taint, RENEW and REVOKE (Section 4). -/

namespace Sys2Proof.Machine

/-! ### The time base -/

/-- The time base makes a lease tick and begins the next period with the divider value as it stands; the tick is
delivered to the lease table and to the claim queue (R69, R70). -/
def State.makeTick (s : State) : State :=
  (s.setTime { s.time with periodCount := 0, periodLength := s.time.divider + 1 }).setTicks
    { tableDue := s.ticks.tableDue + 1, queueDue := s.ticks.queueDue + 1, made := s.ticks.made + 1 }

/-- TICK (R69): the rest of the tick period in progress goes by. No period is counted during a power-on or pin reset
(R73). -/
def execTick (s : State) : Host.Outcome State Fault Refusal :=
  .next (if s.inReset then s else s.makeTick)

/-- SET TIMING's change of warn level sets every running warned flag (R72). -/
def Hold.setWarned : Hold → Hold
  | .held o t n c => .held o t { n with warned := true } c
  | .shared es => .shared (es.map fun e => { e with term := { e.term with warned := true } })
  | h => h

/-- A slot with every running warned flag of its lease set (R72). -/
def slotSetWarned (x : Slot) : Slot :=
  { x with lease := x.lease.map fun l => { l with hold := l.hold.setWarned } }

/-- SET TIMING (R71, R72). -/
def setTimingRule (s : State) (m : Mid) : State × Answer :=
  let d := (s.win m).argDivider
  let w := (s.win m).argWarnLevel
  let g := (s.win m).argGraceLength
  s.unlessRefused (s.supervisorStanding m) <|
    if d = 0 then (s, .bare .badConfig)
    else
      let t := s.setTime { s.time with divider := d, warnLevel := w, graceLength := g }
      (if w = s.time.warnLevel then t else t.mapSlots slotSetWarned, .items .ok d w g)

def execSetTiming (m : Mid) (s : State) : Host.Outcome State Fault Refusal :=
  .next (s.serveRequest m Request.setTiming.code setTimingRule)

/-! ### The lease table's handling of a tick -/

/-- A term one tick later. -/
def Term.lower (n : Term) : Term := { n with remaining := n.remaining - 1 }

/-- A term just lowered is to be warned (R75, R78). -/
def Term.warns (level : Nat) (n : Term) : Bool :=
  n.remaining = level && 0 < level && level < n.granted && !n.warned

/-- The lease of slot `k`, EXCLUSIVE in HELD or GRACE, enters TAINTED at the end of its grace, and TAINTED is raised
for the former owner, for each delegate of its chain and for the supervisor (R77). -/
def State.endGrace (s : State) (k : SlotIx) : State :=
  match s.lease k with
  | none => s
  | some l =>
    match l.hold.owner? with
    | none => s
    | some o => (s.taintSlot k).notifyAll k .tainted (o :: l.hold.chain ++ [s.supmid])

/-- The exclusive term of slot `k` runs out (R76). -/
def State.endTerm (s : State) (k : SlotIx) : State :=
  match s.lease k with
  | none => s
  | some l =>
    match l.hold with
    | .held o t n c =>
      if s.time.graceLength = 0 then s.endGrace k
      else
        (s.setLease k { l with hold := .grace o t { n with remaining := 0 } c s.time.graceLength }).notify k
          .expired o
    | _ => s

/-- Replace the sharer list of a SHARED lease. -/
def State.setSharers (s : State) (k : SlotIx) (es : List Sharer) : State :=
  match s.lease k with
  | none => s
  | some l => s.setLease k { l with hold := .shared es }

/-- The sharer term of `m` in slot `k` runs out: EXPIRED is raised and the membership ends (R79). -/
def State.endSharerTerm (s : State) (k : SlotIx) (m : Mid) : State :=
  (s.notify k .expired m).endMembership k m

/-- A sharer entry after a tick has lowered it, with its warned flag set where it is warned (R78). -/
def Sharer.tick (level : Nat) (e : Sharer) : Sharer :=
  let n := e.term.lower
  { e with term := if n.warns level then { n with warned := true } else n }

/-- What one tick does to the SHARED lease of slot `k` (R78, R79): every entry is lowered, warnings are raised, and
the entries that have run out are removed in list order. -/
def State.tickShared (s : State) (k : SlotIx) (es : List Sharer) : State :=
  let level := s.time.warnLevel
  let warned := (es.filter fun e => e.term.lower.warns level).map Sharer.master
  let out := (es.filter fun e => e.term.remaining ≤ 1).map Sharer.master
  let s := (s.setSharers k (es.map (Sharer.tick level))).notifyAll k .warned warned
  out.foldl (fun s m => s.endSharerTerm k m) s

/-- What one tick does to slot `k` (Table 4-2). -/
def State.tickSlot (s : State) (k : SlotIx) : State :=
  match s.lease k with
  | none => s
  | some l =>
    match l.hold with
    | .held o t n c =>
      if n.remaining ≤ 1 then s.endTerm k
      else
        let n := n.lower
        if n.warns s.time.warnLevel then
          (s.setLease k { l with hold := .held o t { n with warned := true } c }).notify k .warned o
        else s.setLease k { l with hold := .held o t n c }
    | .grace o t n c left =>
      if left ≤ 1 then s.endGrace k else s.setLease k { l with hold := .grace o t n c (left - 1) }
    | .shared es => s.tickShared k es
    | .tainted .. => s
    | .scrub .. => s

/-- The next tick ends a membership of this lease. -/
def Lease.losesSharer (l : Lease) : Bool := l.hold.sharers.any fun e => e.term.remaining ≤ 1

/-- The lease table's handling of a tick (R74): every slot in rising order, then one grant pass when a sharer entry has
ended. -/
def State.tableTick (s : State) : State :=
  let ended := (s.findLease Lease.losesSharer).isSome
  let t := allSlots.foldl State.tickSlot s
  if ended then t.grantPass else t

/-- The lease table takes a tick, one of those delivered to it if there is one (R70). -/
def State.takeTableTick (s : State) : State :=
  (s.setTicks { s.ticks with tableDue := s.ticks.tableDue - 1 }).tableTick

/-- LEASE_TABLE_TICK (R74). -/
def execLeaseTableTick (s : State) : Host.Outcome State Fault Refusal := .next s.takeTableTick

/-- The EXCLUSIVE lease of slot `k` is in HELD with its term on its last tick. -/
def State.termRunsOut (s : State) (k : SlotIx) : Bool :=
  match s.lease k with
  | some { hold := .held _ _ n _, .. } => n.remaining ≤ 1
  | _ => false

/-- The lease of slot `k` is in GRACE with its grace on its last tick. -/
def State.graceRunsOut (s : State) (k : SlotIx) : Bool :=
  match s.lease k with
  | some { hold := .grace _ _ _ _ left, .. } => left ≤ 1
  | _ => false

/-- `m` has an entry on the SHARED lease of slot `k` with its term on its last tick. -/
def State.sharerRunsOut (s : State) (k : SlotIx) (m : Mid) : Bool :=
  (s.lease k).any fun l => l.hold.sharers.any fun e => e.master = m && e.term.remaining ≤ 1

/-- TERM_EXPIRY (R76): the term of slot `k` reaches 0. With no term there on its last tick the event does not occur
(assumption log 6). -/
def execTermExpiry (k : SlotIx) (s : State) : Host.Outcome State Fault Refusal :=
  .next (if s.termRunsOut k then s.endTerm k else s)

/-- GRACE_END (R77): the grace of slot `k` reaches 0. With no grace there on its last tick the event does not occur
(assumption log 6). -/
def execGraceEnd (k : SlotIx) (s : State) : Host.Outcome State Fault Refusal :=
  .next (if s.graceRunsOut k then s.endGrace k else s)

/-- SHARER_EXPIRY (R79): the term of `m`'s entry in slot `k` reaches 0, and the grant pass that an ended membership runs
follows (R61). With no entry there on its last tick the event does not occur (assumption log 6). -/
def execSharerExpiry (k : SlotIx) (m : Mid) (s : State) : Host.Outcome State Fault Refusal :=
  .next (if s.sharerRunsOut k m then (s.endSharerTerm k m).grantPass else s)

/-! ### RENEW -/

/-- A term restarted at `n` ticks. -/
def Term.start (n : Nat) : Term := { granted := n, remaining := n, warned := false }

/-- The granted term that a new term of 0 stands for: the lease's, or `m`'s own entry's (R80). -/
def Hold.grantedTerm (h : Hold) (m : Mid) : Nat :=
  match h with
  | .held _ _ n _ => n.granted
  | .grace _ _ n _ _ => n.granted
  | .shared es => ((es.find? fun e => e.master = m).map fun e => e.term.granted).getD 0
  | _ => 0

/-- Checks 4 to 6 of RENEW (R80). -/
def renewRefusal (m : Mid) (l : Lease) : Option Answer :=
  if l.hold.closed then some (.bare .wrongState)
  else if l.hold.owner? = some m ∨ l.hold.shares m then none
  else some (.bare .notOwner)

/-- The hold after a RENEW by `m` for `n` ticks (R81, R82). -/
def Hold.renewed (h : Hold) (m : Mid) (n : Nat) : Hold :=
  match h with
  | .held o t _ c => .held o t (Term.start n) c
  | .grace o t _ c _ => .held o t (Term.start n) c
  | .shared es => .shared (es.map fun e => if e.master = m then { e with term := Term.start n } else e)
  | h => h

/-- RENEW (R80 to R82). -/
def renewRule (s : State) (m : Mid) : State × Answer :=
  let h := (s.win m).argHandle
  let asked := (s.win m).argTerm
  s.onLease (s.standing m) h (.bare .stale) fun k l =>
    s.unlessRefused (renewRefusal m l) <|
      let n := min (if asked = 0 then l.hold.grantedTerm m else asked) (s.pool l.range.pool).maxTerm
      let r := if l.hold.state = .grace then Result.late else Result.ok
      (s.setLease k { l with hold := l.hold.renewed m n }, .items r h.toNat n)

def execRenew (m : Mid) (s : State) : Host.Outcome State Fault Refusal :=
  .next (s.serveRequest m Request.renew.code renewRule)

/-! ### REVOKE -/

/-- Checks 5 and 6 of REVOKE (R84). -/
def revokeRefusal (l : Lease) : Option Answer :=
  match l.hold with
  | .tainted .. => some (.bare .wrongState)
  | .scrub .. => some (.bare .scrubbing)
  | _ => none

/-- REVOKE (R84, R85). -/
def revokeRule (s : State) (m : Mid) : State × Answer :=
  let h := (s.win m).argHandle
  s.onLease (s.supervisorStanding m) h (.bare .stale) fun k l =>
    s.unlessRefused (revokeRefusal l) <|
      match l.hold.owner? with
      | some o =>
        ((s.taintSlot k).notifyAll k .revoked (o :: l.hold.chain),
          .items .ok h.toNat Mode.exclusive.code SlotState.tainted.code)
      | none =>
        (((s.notifyAll k .revoked (l.hold.sharers.map Sharer.master)).freeSlot k).grantPass,
          .items .ok h.toNat Mode.shared.code SlotState.free.code)

def execRevoke (m : Mid) (s : State) : Host.Outcome State Fault Refusal :=
  .next (s.serveRequest m Request.revoke.code revokeRule)

/-! ### REFCLK -/

/-- One REFCLK period goes by (R69): the period count rises, and when it reaches the length in force a tick is made. -/
def State.refclkPeriod (s : State) : State :=
  if s.time.periodLength ≤ s.time.periodCount + 1 then s.makeTick
  else s.setTime { s.time with periodCount := s.time.periodCount + 1 }

end Sys2Proof.Machine
end

