-- ==== Sys2Proof/Machine/Clock.lean ====
section
/-! DEFINITION. What goes by while no command waits: a tick already made reaches the blocks, and REFCLK runs. -/

namespace Sys2Proof.Machine

/-- The lease table is the next to take a tick: it has one waiting, and either the claim queue has none or the free
order puts the lease table first (R70, assumption log 2). -/
def State.tableIsNext (s : State) : Bool :=
  0 < s.ticks.tableDue && (s.ticks.queueDue = 0 || Config.leaseTableTakesTickFirst s.ticks.made)

/-- A step with no command waiting (assumption log 4): a block takes a tick it has waiting, or else one REFCLK period
goes by. During a power-on or pin reset nothing does. -/
def State.idle (s : State) : State :=
  if s.inReset then s
  else if s.tableIsNext then s.takeTableTick
  else if 0 < s.ticks.queueDue then s.takeQueueTick
  else s.refclkPeriod

end Sys2Proof.Machine
end

