-- ==== Sys2Proof/Machine/Inspect.lean ====
section
/-! DEFINITION. INSPECT (2.8) and NEXT NOTICE (8.3). -/

namespace Sys2Proof.Machine

/-! ### INSPECT -/

/-- The slots after `k` in rising order and then from 0, `k` itself left out (R38). -/
def slotsAfter (k : SlotIx) : List SlotIx := (allSlots.drop (k.val + 1)) ++ (allSlots.take k.val)

/-- The next live slot (R38). -/
def State.nextLive (s : State) (k : SlotIx) : Option SlotIx :=
  (slotsAfter k).find? fun j => (s.lease j).isSome

/-- Chain depth of an EXCLUSIVE lease, sharer count of a SHARED one. -/
def Hold.depthOrSharers : Hold → Nat
  | .shared es => es.length
  | h => h.chain.length

/-- The owner or former owner and the owner tag; zero for a SHARED lease (Table 2-6). -/
def Hold.ownerItems : Hold → Nat × Nat
  | .held o t _ _ => (o.val, t.toNat)
  | .grace o t _ _ _ => (o.val, t.toNat)
  | .tainted o t => (o.val, t.toNat)
  | .scrub o t => (o.val, t.toNat)
  | .shared _ => (0, 0)

/-- The term of an EXCLUSIVE lease in HELD or GRACE; zero and clear elsewhere (Table 2-6). -/
def Hold.termItems : Hold → Term
  | .held _ _ n _ => n
  | .grace _ _ n _ _ => n
  | _ => { granted := 0, remaining := 0, warned := false }

/-- Grace remaining in GRACE, zero elsewhere. -/
def Hold.graceLeft : Hold → Nat
  | .grace _ _ _ _ left => left
  | _ => 0

/-- One position per master with an entry in the set (Table 2-6). -/
def NoticeSet.masters (ns : NoticeSet) : Nat :=
  allMasters.foldl (fun n m => n + flag ns[m].isSome * 2 ^ m.val) 0

/-- The presence of an entry of the lease's collections, and its items: MID, tag and term (R37). -/
def Hold.subRecord (h : Hold) (i : Nat) : Option (Nat × Nat × Term) :=
  match h with
  | .shared es => es[i - 1]?.map fun e => (e.master.val, e.tag.toNat, e.term)
  | h => h.chain[i - 1]?.map fun d => (d.val, 0, { granted := 0, remaining := 0, warned := false })

/-- VAL0 of every INSPECT answer (Table 10-6). -/
def State.inspectHead (s : State) (k : SlotIx) : Word :=
  let next := place (slotCode (s.nextLive k)) 25 6
  let handle := place (s.handle k).toNat 0 16
  match s.lease k with
  | none => handle ||| next
  | some l =>
    handle ||| place l.hold.state.code 16 3 ||| place l.hold.mode.code 19 1 ||| place l.hold.depthOrSharers 20 4
      ||| place (flag l.hold.termItems.warned) 24 1 ||| next

/-- The summary (R36, Table 10-6). -/
def State.inspectSummary (s : State) (k : SlotIx) : Answer :=
  match s.lease k with
  | none => { Answer.bare .ok with val0 := s.inspectHead k }
  | some l =>
    { result := .ok
      val0 := s.inspectHead k
      val1 := place l.range.first 0 16 ||| place l.range.count 16 13 ||| place l.range.pool.val 29 2
      val2 := place l.hold.termItems.granted 0 16 ||| place l.hold.termItems.remaining 16 16
      val3 :=
        place l.hold.ownerItems.1 0 3 ||| place ((l.hold.currentUser?.map Fin.val).getD 0) 4 3
          ||| place l.hold.ownerItems.2 8 8 ||| place l.notices.masters 16 8 ||| place l.hold.graceLeft 24 8 }

/-- A sub-record, selector `i` from 1 on (R37, Table 10-6). -/
def State.inspectSub (s : State) (k : SlotIx) (i : Nat) : Answer :=
  match (s.lease k).bind fun l => l.hold.subRecord i with
  | none => { Answer.bare .ok with val0 := s.inspectHead k }
  | some (mid, tag, n) =>
    { result := .ok
      val0 := s.inspectHead k
      val1 := place mid 0 3 ||| place tag 8 8 ||| place (flag n.warned) 30 1 ||| place 1 31 1
      val2 := place n.granted 0 16 ||| place n.remaining 16 16
      val3 := 0 }

/-- INSPECT (R35). -/
def inspectRule (s : State) (m : Mid) : State × Answer :=
  let slot := (s.win m).argSlot
  let sel := (s.win m).argSelector
  let k : SlotIx := Fin.ofNat 32 slot
  if s.fenced m then (s, .bare .fenced)
  else if 31 < slot ∨ 8 < sel then (s, .bare .badRange)
  else if sel = 0 then (s, s.inspectSummary k)
  else (s, s.inspectSub k sel)

def execInspect (m : Mid) (s : State) : Host.Outcome State Fault Refusal :=
  .next (s.serveRequest m Request.inspect.code inspectRule)

/-! ### NEXT NOTICE -/

/-- Where NEXT NOTICE finds the item it collects (R147). -/
inductive Item where
  | orphan (o : Orphan)
  | claim (e : ClaimEntry)
  | lease (k : SlotIx) (l : Lease) (n : NoticeKind)
  | scrub (e : ScrubEntry)
  deriving DecidableEq, Repr

/-- The requester's entry in the pending-notice set of the lowest-numbered slot that holds one. -/
def State.leaseItem (s : State) (m : Mid) : Option Item :=
  (s.findLease fun l => l.notices[m].isSome).bind fun k =>
    (s.lease k).bind fun l => l.notices[m].map fun n => .lease k l n

/-- The first of `m`'s pending items in the order of R147. -/
def State.firstItem (s : State) (m : Mid) : Option Item :=
  match (s.master m).orphan with
  | some o => some (.orphan o)
  | none =>
    match s.queue.find? (ClaimEntry.endedOf m) with
    | some e => some (.claim e)
    | none =>
      match s.leaseItem m with
      | some i => some i
      | none => if s.isSupervisor m then (s.scrub.list.find? ScrubEntry.finished).map .scrub else none

/-- Remove that item from the place that held it (R147). -/
def State.collect (s : State) (m : Mid) (i : Item) : State :=
  match i with
  | .orphan _ => s.setMaster m { s.master m with orphan := none }
  | .claim _ => s.setQueue (s.queue.eraseP (ClaimEntry.endedOf m))
  | .lease k _ _ => s.dropNotice k m
  | .scrub _ => s.setScrub { s.scrub with list := s.scrub.list.eraseP ScrubEntry.finished }

/-- The requester's own tag in a lease, where it has one: the owner's or former owner's, or its sharer entry's
(R148). -/
def Hold.tagOf (h : Hold) (m : Mid) : Option Tag :=
  match h with
  | .held o t _ _ => if o = m then some t else none
  | .grace o t _ _ _ => if o = m then some t else none
  | .tainted o t => if o = m then some t else none
  | .scrub o t => if o = m then some t else none
  | .shared es => (es.find? fun e => e.master = m).map Sharer.tag

/-- The code of TIMED_OUT, SCRUBBED and SCRUB_FAILED (Table 10-5). -/
def timedOutCode : Nat := 9
def scrubbedCode : Nat := 10
def scrubFailedCode : Nat := 11

/-- Kind code and failing word of a finished scrub entry (Table 8-3). -/
def ScrubState.report : ScrubState → Nat × Nat
  | .failed a => (scrubFailedCode, a)
  | _ => (scrubbedCode, 0)

/-- The lease state a finished scrub entry's answer reports: FREE when its handle no longer names the slot's lease
(Table 8-3). -/
def State.stateUnder (s : State) (h : Handle) : SlotState :=
  match s.lookup h with
  | none => .free
  | some (_, l) => l.hold.state

/-- VAL0 of a NEXT NOTICE answer (Table 10-6). -/
def noticeHead (handle kind source state mode : Nat) : Word :=
  place handle 0 16 ||| place kind 16 4 ||| place source 20 3 ||| place state 24 3 ||| place mode 27 1

/-- The answer for an item found in `s`, with `left` items of the requester remaining (R148, Table 8-3). -/
def State.itemAnswer (s : State) (m : Mid) (i : Item) (left : Nat) : Answer :=
  let remaining := place left 16 6
  match i with
  | .orphan o =>
    { Answer.bare .ok with val0 := noticeHead o.handle.toNat o.kind.code 1 0 0, val1 := remaining }
  | .claim e =>
    { result := .ok
      val0 := noticeHead 0 timedOutCode 2 0 0
      val1 := place e.claim.tag.toNat 0 8 ||| place 1 8 1 ||| remaining
      val2 :=
        place e.claim.range.first 0 16 ||| place e.claim.range.count 16 13 ||| place e.claim.range.pool.val 29 2
      val3 := 0 }
  | .lease k l n =>
    { Answer.bare .ok with
      val0 := noticeHead (s.handle k).toNat n.code 3 l.hold.state.code l.hold.mode.code
      val1 :=
        match l.hold.tagOf m with
        | none => remaining
        | some t => place t.toNat 0 8 ||| place 1 8 1 ||| remaining }
  | .scrub e =>
    { Answer.bare .ok with
      val0 := noticeHead e.handle.toNat e.state.report.1 4 (s.stateUnder e.handle).code 0
      val1 := remaining
      val3 := word e.state.report.2 }

/-- NEXT NOTICE (R146 to R148). -/
def nextNoticeRule (s : State) (m : Mid) : State × Answer :=
  if s.fenced m then (s, .bare .fenced)
  else if !s.attached m then (s, .bare .noNotice)
  else
    match s.firstItem m with
    | none => (s, .bare .noNotice)
    | some i =>
      let t := s.collect m i
      (t, s.itemAnswer m i (t.pendingItems m))

def execNextNotice (m : Mid) (s : State) : Host.Outcome State Fault Refusal :=
  .next (s.serveRequest m Request.nextNotice.code nextNoticeRule)

end Sys2Proof.Machine
end

