-- ==== Sys2Proof/Machine/Masters.lean ====
section
/-! DEFINITION. Attachment, quotas, fencing and soft reset (Section 7). -/

namespace Sys2Proof.Machine

/-! ### ATTACH and STATUS -/

/-- ATTACH (R129). The answer reports the context as the request leaves it (assumption log 8). -/
def attachRule (s : State) (m : Mid) : State × Answer :=
  if s.fenced m then (s, s.context m .fenced)
  else if s.attached m then (s, s.context m .alreadyAttached)
  else
    let t := s.setMaster m { s.master m with state := .attached }
    (t, t.context m .ok)

def execAttach (m : Mid) (s : State) : Host.Outcome State Fault Refusal :=
  .next (s.serveRequest m Request.attach.code attachRule)

/-- STATUS (R133). -/
def statusRule (s : State) (m : Mid) : State × Answer := (s, s.context m .ok)

def execStatus (m : Mid) (s : State) : Host.Outcome State Fault Refusal :=
  .next (s.serveRequest m Request.status.code statusRule)

/-! ### DETACH -/

/-- `m` owns the lease in its own right. -/
def Lease.ownedBy (m : Mid) (l : Lease) : Bool := l.hold.owner? = some m

/-- Checks of DETACH after the standing checks (R130). -/
def detachRefusal (s : State) (m : Mid) : Option Answer :=
  match s.findLease fun l => l.ownedBy m && l.hold.chain ≠ [] with
  | some k => some (.items .lent (s.handle k).toNat)
  | none => (s.findLease fun l => l.hold.chain.contains m).map fun k => .items .inChain (s.handle k).toNat

/-- What a DETACH of `m` does to slot `k`: an owned lease is freed cleanly, a membership ended (R131, steps 2 and 3). -/
def State.detachSlot (m : Mid) (s : State) (k : SlotIx) : State :=
  if (s.lease k).any (Lease.ownedBy m) then s.freeSlot k else s.endMembership k m

/-- Remove every claim-queue entry of `m` (R66). -/
def State.purgeEntries (s : State) (m : Mid) : State := s.setQueue (s.queue.filter fun e => e.claim.master ≠ m)

/-- Discard the finished entries of the scrub list (R131). -/
def State.dropFinished (s : State) : State :=
  s.setScrub { s.scrub with list := s.scrub.list.filter fun e => !e.finished }

/-- `m`'s two counts at 0 and its state as given (R131, R137). -/
def State.emptyMaster (s : State) (m : Mid) (st : MasterState) : State :=
  s.setMaster m { s.master m with state := st, held := 0, waiting := 0 }

/-- The effects of an accepted DETACH (R131). -/
def State.detach (s : State) (m : Mid) : State :=
  let t := allSlots.foldl (State.detachSlot m) (s.dropAllNotices m)
  let t := t.purgeEntries m
  let t := if s.isSupervisor m then t.dropFinished else t
  (t.emptyMaster m .detached).grantPass

/-- How many leases `m` owns in HELD or GRACE. -/
def State.ownedCount (s : State) (m : Mid) : Nat := s.countLeases (Lease.ownedBy m)

/-- How many SHARED leases `m` has an entry on. -/
def State.memberCount (s : State) (m : Mid) : Nat := s.countLeases fun l => l.hold.shares m

/-- DETACH (R130, R131). -/
def detachRule (s : State) (m : Mid) : State × Answer :=
  s.unlessRefused (s.standing m) <|
    s.unlessRefused (detachRefusal s m) <|
      (s.detach m,
        .items .ok (s.ownedCount m) (s.memberCount m) (s.queue.countP fun e => e.claim.master = m))

def execDetach (m : Mid) (s : State) : Host.Outcome State Fault Refusal :=
  .next (s.serveRequest m Request.detach.code detachRule)

/-! ### The fence -/

/-- What a fence of `m` does to a lease `m` owns in HELD or GRACE (R137, step 2). -/
def State.fenceOwned (m : Mid) (s : State) (k : SlotIx) : State :=
  match s.lease k with
  | none => s
  | some l =>
    if l.ownedBy m then ((s.taintSlot k).notifyAll k .revoked l.hold.chain).notify k .tainted s.supmid else s

/-- The frames younger than `m`'s. -/
def framesAfter (m : Mid) (c : List Mid) : List Mid := (c.dropWhile fun d => d ≠ m).drop 1

/-- The frames older than `m`'s. -/
def framesBefore (m : Mid) (c : List Mid) : List Mid := c.takeWhile fun d => d ≠ m

/-- What a fence of `m` does to a chain in which `m` holds a frame: the chain is cut at `m`, RETURNED is raised for the
new current user and RECALLED for the younger delegates (R138). -/
def State.fenceChain (m : Mid) (s : State) (k : SlotIx) : State :=
  match s.lease k with
  | none => s
  | some l =>
    if m ∈ l.hold.chain then
      let left := l.hold.withChain (framesBefore m l.hold.chain)
      let t := s.setLease k { l with hold := left }
      let t :=
        match left.currentUser? with
        | none => t
        | some u => t.notify k .returned u
      t.notifyAll k .recalled (framesAfter m l.hold.chain)
    else s

/-- A fence of `m` (R137). From its start `m` is FENCED, so no step raises a notice for it. -/
def State.fenceMaster (s : State) (m : Mid) : State :=
  let t := s.dropAllNotices m
  let t := t.setMaster m { t.master m with state := .fenced }
  let t := allSlots.foldl (State.fenceOwned m) t
  let t := allSlots.foldl (fun t k => t.endMembership k m) t
  let t := allSlots.foldl (State.fenceChain m) t
  ((t.purgeEntries m).emptyMaster m .fenced).grantPass

/-- How many frames a fence of `m` cuts from the chains of other owners' leases (R136). -/
def State.cutCount (s : State) (m : Mid) : Nat :=
  (allSlots.map fun k =>
    match s.lease k with
    | none => 0
    | some l => if l.ownedBy m then 0 else (l.hold.chain.dropWhile fun d => d ≠ m).length).sum

/-- The master's count meets its threshold, and nothing keeps it from being fenced for it (R120, R134). -/
def State.overThreshold (s : State) (m : Mid) : Bool :=
  !s.isSupervisor m && !s.fenced m && 0 < (s.master m).threshold
    && (s.master m).threshold ≤ (s.master m).violations

/-- FENCE (R136). -/
def fenceRule (s : State) (m : Mid) : State × Answer :=
  let v := (s.win m).argMaster
  s.unlessRefused (s.supervisorStanding m) <|
    if s.isSupervisor v then (s, .bare .notAllowed)
    else if s.fenced v then (s, .bare .wrongState)
    else
      (s.fenceMaster v,
        .items .ok (s.ownedCount v) (s.memberCount v) (s.cutCount v)
          (s.queue.countP fun e => e.claim.master = v))

def execFence (m : Mid) (s : State) : Host.Outcome State Fault Refusal :=
  .next (s.serveRequest m Request.fence.code fenceRule)

/-- A master record with its violation count and refusal note cleared. -/
def Master.cleared (x : Master) : Master := { x with violations := 0, note := none }

/-- UNFENCE (R140). -/
def unfenceRule (s : State) (m : Mid) : State × Answer :=
  let v := (s.win m).argMaster
  s.unlessRefused (s.supervisorStanding m) <|
    if !s.fenced v then (s, .bare .wrongState)
    else (s.setMaster v { (s.master v).cleared with state := .detached }, .bare .ok)

def execUnfence (m : Mid) (s : State) : Host.Outcome State Fault Refusal :=
  .next (s.serveRequest m Request.unfence.code unfenceRule)

/-- CLEAR NOTE (R141): the count in VAL0, the note placed as in a STATUS answer (R169). -/
def clearNoteRule (s : State) (m : Mid) : State × Answer :=
  let v := (s.win m).argMaster
  let x := s.master v
  s.unlessRefused (s.supervisorStanding m) <|
    (s.setMaster v x.cleared,
      { result := .ok, val0 := word x.violations, val1 := noteWord x.note, val2 := noteAddress x.note, val3 := 0 })

def execClearNote (m : Mid) (s : State) : Host.Outcome State Fault Refusal :=
  .next (s.serveRequest m Request.clearNote.code clearNoteRule)

/-! ### SET MASTER -/

/-- SET MASTER (R134). -/
def setMasterRule (s : State) (m : Mid) : State × Answer :=
  let w := s.win m
  let v := w.argMaster
  let x := s.master v
  s.unlessRefused (s.supervisorStanding m) <|
    if w.argQuota = 0 ∨ 32 < w.argQuota then (s, .bare .badConfig)
    else if w.argQuota < x.held + x.waiting then (s, .items .quota x.held x.waiting)
    else
      let t := s.setMaster v { x with quota := w.argQuota, threshold := w.argThreshold }
      let fences := t.overThreshold v
      (if fences then t.fenceMaster v else t, .items .ok w.argQuota w.argThreshold (flag fences))

def execSetMaster (m : Mid) (s : State) : Host.Outcome State Fault Refusal :=
  .next (s.serveRequest m Request.setMaster.code setMasterRule)

/-! ### SOFT RESET -/

/-- A slot after a soft reset (Table 2-7). -/
def Slot.softReset (x : Slot) : Slot :=
  match x.lease with
  | none => x
  | some l =>
    match l.hold with
    | .shared _ => { x with lease := none }
    | .scrub o t => { x with lease := some { range := l.range, hold := .tainted o t, notices := NoticeSet.empty } }
    | h => { x with lease := some { range := l.range, hold := h.taint, notices := NoticeSet.empty } }

/-- A master record after a soft reset (R142). -/
def Master.softReset (x : Master) : Master :=
  { x with
    state := .detached, held := 0, waiting := 0, violations := 0, note := none, orphan := none }

/-- A window slot after a soft reset (R173). -/
def WindowSlot.softReset (w : WindowSlot) : WindowSlot :=
  { w with result := 0, answered := 0, val0 := 0, val1 := 0, val2 := 0, val3 := 0 }

/-- The scrub engine after a soft reset (R164). -/
def ScrubEngine.softReset (e : ScrubEngine) : ScrubEngine :=
  { e with list := [], breq := false, run := none, flight := none }

/-- A soft reset (R142). -/
def State.softReset (s : State) : State :=
  { s with
    slots := Vector.ofFn fun k : Fin 32 => s.slots[k].softReset
    queue := []
    masters := Vector.ofFn fun m : Fin 8 => s.masters[m].softReset
    scrub := s.scrub.softReset
    window := Vector.ofFn fun m : Fin 8 => s.window[m].softReset
    cause := .soft }

/-- SOFT RESET (R142). -/
def softResetRule (s : State) (m : Mid) : State × Answer :=
  s.unlessRefused (s.supervisorStanding m) (s.softReset, .bare .ok)

def execSoftReset (m : Mid) (s : State) : Host.Outcome State Fault Refusal :=
  .next (s.serveRequest m Request.softReset.code softResetRule)

end Sys2Proof.Machine
end

