-- ==== Sys2Proof/Machine/Pools.lean ====
section
/-! DEFINITION. SET POOL and the governed space (Section 1). -/

namespace Sys2Proof.Machine

/-- The claim-queue entries that name the pool. -/
def State.entriesIn (s : State) (p : PoolIx) : Nat := s.queue.countP fun e => e.claim.range.pool = p

/-- The lease's range is in the pool. -/
def Lease.inPool (p : PoolIx) (l : Lease) : Bool := l.range.pool = p

/-- POOL_BUSY, when the pool is busy (R10). -/
def poolBusy (s : State) (p : PoolIx) : Option Answer :=
  let leases := s.countLeases (Lease.inPool p)
  if leases ≠ 0 ∨ s.entriesIn p ≠ 0 then
    some (.items .poolBusy leases (s.entriesIn p) (slotCode (s.findLease (Lease.inPool p))))
  else none

/-- The lowest-numbered other enabled pool whose extent shares a byte with that span (R12). -/
def State.poolMeeting (s : State) (p : PoolIx) (b t : Nat) : Option PoolIx :=
  allPools.find? fun q =>
    q ≠ p && (s.pool q).enabled && spansMeet b t (s.pool q).base.toNat (s.pool q).top

/-- The address just past the extent that the arguments describe. -/
def PoolArgs.top (a : PoolArgs) : Nat := a.base.toNat + a.size * a.granule.bytes

/-- The span shares a byte with the command window (R12). -/
def State.meetsWindow (s : State) (b t : Nat) : Bool := spansMeet b t s.windowBase (s.windowBase + 256)

/-- The field checks of Table 1-5 and the overlap checks of R12: the number of the first that fails, and the pool that
check 7 reports. -/
def poolCheck (s : State) (a : PoolArgs) : Option (Nat × Nat) :=
  if a.size = 0 ∨ 65536 < a.size then some (1, 0)
  else if a.base.toNat % a.granule.bytes ≠ 0 then some (2, 0)
  else if 2 ^ 32 < a.top then some (3, 0)
  else if Policy.ofCode a.policy = none then some (4, 0)
  else if a.maxTerm = 0 then some (5, 0)
  else if !a.enabled then none
  else if s.meetsWindow a.base.toNat a.top then some (6, 0)
  else (s.poolMeeting a.pool a.base.toNat a.top).map fun q => (7, q.val)

/-- The record that accepted arguments describe (R13). -/
def PoolArgs.record (a : PoolArgs) : Pool :=
  { enabled := a.enabled
    base := a.base
    size := a.size
    granule := a.granule
    policy := (Policy.ofCode a.policy).getD .refuse
    maxTerm := a.maxTerm }

/-- Checks of SET POOL after the standing checks (R10 to R12). -/
def setPoolRefusal (s : State) (a : PoolArgs) : Option Answer :=
  match poolBusy s a.pool with
  | some b => some b
  | none => (poolCheck s a).map fun c => .items .badConfig c.1 c.2

/-- SET POOL (R9 to R13). -/
def setPoolRule (s : State) (m : Mid) : State × Answer :=
  let a := (s.win m).poolArgs
  s.unlessRefused (s.supervisorStanding m) <|
    s.unlessRefused (setPoolRefusal s a) <|
      (s.setPool a.pool a.record, .items .ok (a.top - 1))

def execSetPool (m : Mid) (s : State) : Host.Outcome State Fault Refusal :=
  .next (s.serveRequest m Request.setPool.code setPoolRule)

/-- The pool and granule that govern an address, if any (R6). -/
def State.governed (s : State) (a : Word) : Option (PoolIx × Nat) :=
  (allPools.find? fun p => (s.pool p).enabled && (s.pool p).contains a).map fun p =>
    (p, (s.pool p).granuleOf a)

end Sys2Proof.Machine
end

