-- ==== Sys2Proof/Machine/Judge.lean ====
section
/-! DEFINITION. The access judge: the verdict on an access to governed memory and the handling of a refusal
(Section 6). -/

namespace Sys2Proof.Machine

/-- A verdict: PASS, or a refusal with its reason and the slot it names (6.2). -/
inductive Verdict where
  | pass
  | refuse (reason : Reason) (slot : Option SlotIx)
  deriving DecidableEq, Repr

/-- The verdict under the EXCLUSIVE lease of slot `k`, by the master's role (Table 6-3). -/
def roleVerdict (k : SlotIx) : Role → Verdict
  | .ownerUser => .pass
  | .lastDelegate => .pass
  | .ownerLent => .refuse .lentAway (some k)
  | .delegateLentOn => .refuse .lentAway (some k)
  | _ => .refuse .notHolder (some k)

/-- The verdict of a default policy on an uncovered granule (Table 1-4). -/
def policyVerdict (p : Policy) (dir : Direction) : Verdict :=
  match p, dir with
  | .openAll, _ => .pass
  | .readOpen, .read => .pass
  | _, _ => .refuse .noLease none

namespace State

/-- The lowest-numbered slot whose lease covers the granule and satisfies `f` (R24). -/
def covering (s : State) (p : PoolIx) (g : Nat) (f : Hold → Bool) : Option SlotIx :=
  s.findLease fun l => l.range.covers p g && f l.hold

/-- The verdict under SHARED leases, `k` being the lowest-numbered of those that cover the granule (R115). -/
def sharedVerdict (s : State) (m : Mid) (p : PoolIx) (g : Nat) (dir : Direction) (k : SlotIx) : Verdict :=
  match s.covering p g fun h => h.shares m, dir with
  | some _, .read => .pass
  | some j, .write => .refuse .readOnly (some j)
  | none, _ => .refuse .notHolder (some k)

/-- The verdict on an access to granule `g` of pool `p` by a master that is not FENCED: rows 2 to 5 of Table 6-2. -/
def granuleVerdict (s : State) (m : Mid) (p : PoolIx) (g : Nat) (dir : Direction) : Verdict :=
  match s.covering p g Hold.closed with
  | some k => .refuse .tainted (some k)
  | none =>
    match s.covering p g Hold.live with
    | some k => roleVerdict k (((s.lease k).map fun l => l.hold.role m).getD .outsider)
    | none =>
      match s.covering p g fun h => h.mode = .shared with
      | some k => s.sharedVerdict m p g dir k
      | none => policyVerdict (s.pool p).policy dir

/-- The verdict on an access (R111); an ungoverned one passes (R6, R110). -/
def verdict (s : State) (m : Mid) (a : Word) (dir : Direction) : Verdict :=
  match s.governed a with
  | none => .pass
  | some (p, g) => if s.fenced m then .refuse .fenced none else s.granuleVerdict m p g dir

/-- Steps 1 and 2 of a refusal report: the count rises and saturates at 15, and an empty note is filled (R120). -/
def countRefusal (s : State) (m : Mid) (n : Note) : State :=
  let x := s.master m
  s.setMaster m { x with violations := min 15 (x.violations + 1), note := some (x.note.getD n) }

/-- The master contexts' handling of a refusal report (R120). -/
def reportRefusal (s : State) (m : Mid) (n : Note) : State :=
  let t := s.countRefusal m n
  if t.overThreshold m then t.fenceMaster m else t

/-- The judge takes an access, and the part lets it pass or answers it with the bus error response, presenting zero with
a refused read (R108, R118, R119). -/
def judge (s : State) (m : Mid) (a : Word) (dir : Direction) : State :=
  match s.verdict m a dir with
  | .pass => s.setBus .passed
  | .refuse r k =>
    (s.reportRefusal m { address := a, dir := dir, reason := r, slot := k }).setBus (.refused r k 0)

end State

end Sys2Proof.Machine
end

