-- ==== Sys2Proof/Machine/Lending.lean ====
section
/-! DEFINITION. RELEASE, DOWNGRADE and UPGRADE, and the delegation requests LEND, RETURN and RECALL (Section 5). -/

namespace Sys2Proof.Machine

/-! ### Answers of the six (Table 5-2) -/

/-- STALE: the handle as given, the slot's present generation and state. -/
def State.staleAnswer (s : State) (h : Handle) : Answer :=
  .items .stale h.toNat (s.slot (Handle.slot h)).gen.toNat (s.slot (Handle.slot h)).state.code

/-- WRONG_MODE, WRONG_STATE, NOT_OWNER and NOT_LENT: the handle, the mode and the state. -/
def heldAnswer (r : Result) (h : Handle) (l : Lease) : Answer :=
  .items r h.toNat l.hold.mode.code l.hold.state.code

/-- The current user as an answer item. -/
def Hold.userItem (h : Hold) : Nat := (h.currentUser?.map Fin.val).getD 0

/-- LENT: the handle, the chain depth and the current user. -/
def lentAnswer (h : Handle) (l : Lease) : Answer :=
  .items .lent h.toNat l.hold.chain.length l.hold.userItem

/-- The lowest-numbered other slot whose lease overlaps the range of `l`, the lease of slot `k` (R94). -/
def State.otherOverlap (s : State) (k : SlotIx) (l : Lease) : Option SlotIx :=
  allSlots.find? fun j => j ≠ k && (s.lease j).any fun l' => l'.range.overlaps l.range

/-! ### RELEASE -/

/-- Checks 4 to 7 of RELEASE (R88). -/
def releaseRefusal (m : Mid) (h : Handle) (l : Lease) : Option Answer :=
  if l.hold.closed then some (heldAnswer .wrongState h l)
  else if ¬(l.hold.owner? = some m ∨ l.hold.shares m) then some (heldAnswer .notOwner h l)
  else if l.hold.chain ≠ [] then some (lentAnswer h l)
  else none

/-- RELEASE (R88 to R90). The answer is for the request's own effect, before the grant pass (R61). -/
def releaseRule (s : State) (m : Mid) : State × Answer :=
  let h := (s.win m).argHandle
  s.onLease (s.standing m) h (s.staleAnswer h) fun k l =>
    s.unlessRefused (releaseRefusal m h l) <|
      let s := s.dropNotice k m
      let t := if l.hold.mode = .shared then s.endMembership k m else s.freeSlot k
      (t.grantPass,
        .items .ok h.toNat l.hold.mode.code (t.slot k).state.code
          (((t.lease k).map fun l => l.hold.sharers.length).getD 0))

def execRelease (m : Mid) (s : State) : Host.Outcome State Fault Refusal :=
  .next (s.serveRequest m Request.release.code releaseRule)

/-! ### DOWNGRADE and UPGRADE -/

/-- Checks 4 to 7 of DOWNGRADE (R92). -/
def downgradeRefusal (m : Mid) (h : Handle) (l : Lease) : Option Answer :=
  if l.hold.mode = .shared then some (heldAnswer .wrongMode h l)
  else if l.hold.state ≠ .held then some (heldAnswer .wrongState h l)
  else if l.hold.owner? ≠ some m then some (heldAnswer .notOwner h l)
  else if l.hold.chain ≠ [] then some (lentAnswer h l)
  else none

/-- An EXCLUSIVE lease in HELD as a SHARED one with its owner as sole sharer (R32). -/
def Hold.downgraded : Hold → Hold
  | .held o t n _ => .shared [{ master := o, tag := t, term := n }]
  | h => h

/-- The remaining term of an EXCLUSIVE lease in HELD or GRACE. -/
def Hold.remaining : Hold → Nat
  | .held _ _ n _ => n.remaining
  | .grace _ _ n _ _ => n.remaining
  | _ => 0

/-- DOWNGRADE (R92, R93). -/
def downgradeRule (s : State) (m : Mid) : State × Answer :=
  let h := (s.win m).argHandle
  s.onLease (s.standing m) h (s.staleAnswer h) fun k l =>
    s.unlessRefused (downgradeRefusal m h l) <|
      let t := (s.setLease k { l with hold := l.hold.downgraded }).grantPass
      (t, .items .ok h.toNat l.hold.remaining (((t.lease k).map fun l => l.hold.sharers.length).getD 0))

def execDowngrade (m : Mid) (s : State) : Host.Outcome State Fault Refusal :=
  .next (s.serveRequest m Request.downgrade.code downgradeRule)

/-- Checks 4 to 7 of UPGRADE (R94). -/
def upgradeRefusal (s : State) (m : Mid) (h : Handle) (k : SlotIx) (l : Lease) : Option Answer :=
  if l.hold.mode = .exclusive then some (heldAnswer .wrongMode h l)
  else if !l.hold.shares m then some (heldAnswer .notOwner h l)
  else if l.hold.sharers.any fun e => e.master ≠ m then
    some (.items .sharedBusy h.toNat l.hold.sharers.length)
  else
    match s.otherOverlap k l with
    | some j => some (.items .conflict h.toNat j.val)
    | none => none

/-- A SHARED lease as an EXCLUSIVE one owned by its oldest sharer, which is its only one when UPGRADE is accepted
(R32). -/
def Hold.upgraded : Hold → Hold
  | .shared (e :: _) => .held e.master e.tag e.term []
  | h => h

/-- The granted term of an EXCLUSIVE lease in HELD or GRACE. -/
def Hold.granted : Hold → Nat
  | .held _ _ n _ => n.granted
  | .grace _ _ n _ _ => n.granted
  | _ => 0

/-- UPGRADE (R94, R95). -/
def upgradeRule (s : State) (m : Mid) : State × Answer :=
  let h := (s.win m).argHandle
  s.onLease (s.standing m) h (s.staleAnswer h) fun k l =>
    s.unlessRefused (upgradeRefusal s m h k l) <|
      let up := l.hold.upgraded
      (s.setLease k { l with hold := up }, .items .ok h.toNat up.remaining up.granted)

def execUpgrade (m : Mid) (s : State) : Host.Outcome State Fault Refusal :=
  .next (s.serveRequest m Request.upgrade.code upgradeRule)

/-! ### LEND, RETURN and RECALL -/

/-- Checks 4 to 9 of LEND (R98). -/
def lendRefusal (s : State) (m d : Mid) (h : Handle) (l : Lease) : Option Answer :=
  if l.hold.mode = .shared then some (heldAnswer .wrongMode h l)
  else if l.hold.state ≠ .held then some (heldAnswer .wrongState h l)
  else if l.hold.currentUser? ≠ some m then some (.items .notUser h.toNat l.hold.userItem)
  else if !s.attached d then some (.items .badMaster h.toNat d.val)
  else if l.hold.owner? = some d ∨ d ∈ l.hold.chain then some (.items .inChain h.toNat d.val)
  else if 3 ≤ l.hold.chain.length then some (.items .depth h.toNat l.hold.chain.length)
  else none

/-- LEND (R98, R99). -/
def lendRule (s : State) (m : Mid) : State × Answer :=
  let h := (s.win m).argHandle
  let d := (s.win m).argDelegate
  s.onLease (s.standing m) h (s.staleAnswer h) fun k l =>
    s.unlessRefused (lendRefusal s m d h l) <|
      let lent := l.hold.withChain (l.hold.chain ++ [d])
      ((s.setLease k { l with hold := lent }).notify k .delegated d,
        .items .ok h.toNat lent.chain.length lent.userItem)

def execLend (m : Mid) (s : State) : Host.Outcome State Fault Refusal :=
  .next (s.serveRequest m Request.lend.code lendRule)

/-- Checks 4 to 7 of RETURN (R100). -/
def returnRefusal (m : Mid) (h : Handle) (l : Lease) : Option Answer :=
  if l.hold.mode = .shared then some (heldAnswer .wrongMode h l)
  else if l.hold.closed then some (heldAnswer .wrongState h l)
  else if l.hold.chain = [] then some (heldAnswer .notLent h l)
  else if l.hold.chain.getLast? ≠ some m then some (.items .notUser h.toNat l.hold.userItem)
  else none

/-- Raise a notice of that kind for the current user of a hold, if it has one. -/
def State.notifyUser (s : State) (k : SlotIx) (n : NoticeKind) (h : Hold) : State :=
  match h.currentUser? with
  | none => s
  | some u => s.notify k n u

/-- RETURN (R100, R101). -/
def returnRule (s : State) (m : Mid) : State × Answer :=
  let h := (s.win m).argHandle
  s.onLease (s.standing m) h (s.staleAnswer h) fun k l =>
    s.unlessRefused (returnRefusal m h l) <|
      let back := l.hold.withChain l.hold.chain.dropLast
      ((s.setLease k { l with hold := back }).notifyUser k .returned back,
        .items .ok h.toNat back.chain.length back.userItem)

def execGiveBack (m : Mid) (s : State) : Host.Outcome State Fault Refusal :=
  .next (s.serveRequest m Request.giveBack.code returnRule)

/-- Checks 4 to 7 of RECALL (R102). -/
def recallRefusal (m : Mid) (h : Handle) (l : Lease) : Option Answer :=
  if l.hold.mode = .shared then some (heldAnswer .wrongMode h l)
  else if l.hold.closed then some (heldAnswer .wrongState h l)
  else if l.hold.owner? ≠ some m then some (heldAnswer .notOwner h l)
  else if l.hold.chain = [] then some (heldAnswer .notLent h l)
  else none

/-- RECALL (R102, R103). -/
def recallRule (s : State) (m : Mid) : State × Answer :=
  let h := (s.win m).argHandle
  s.onLease (s.standing m) h (s.staleAnswer h) fun k l =>
    s.unlessRefused (recallRefusal m h l) <|
      ((s.setLease k { l with hold := l.hold.withChain [] }).notifyAll k .recalled l.hold.chain,
        .items .ok h.toNat l.hold.chain.length)

def execRecall (m : Mid) (s : State) : Host.Outcome State Fault Refusal :=
  .next (s.serveRequest m Request.recall.code recallRule)

end Sys2Proof.Machine
end

