-- ==== Sys2Proof/Machine/Scrub.lean ====
section
/-! DEFINITION. The scrub list, the scrub link and the recovery requests SCRUB, SET FILL, CLEAR and ADOPT
(Section 9). -/

namespace Sys2Proof.Machine

/-! ### The list and activation -/

/-- An entry is ACTIVE. -/
def ScrubEntry.active (e : ScrubEntry) : Bool := e.state.isActive

/-- An entry is QUEUED. -/
def ScrubEntry.isQueued (e : ScrubEntry) : Bool := e.state.live && !e.state.isActive

/-- A QUEUED entry made ACTIVE, its progress kept (R154). -/
def ScrubState.activated : ScrubState → ScrubState
  | .queued p => .active p
  | st => st

/-- Make the oldest QUEUED entry ACTIVE. -/
def activateOldest : List ScrubEntry → List ScrubEntry
  | [] => []
  | e :: es => if e.isQueued then { e with state := e.state.activated } :: es else e :: activateOldest es

/-- The progress of an entry; 0 in a finished one. -/
def ScrubState.progress : ScrubState → Nat
  | .queued p => p
  | .active p => p
  | _ => 0

namespace State

/-- The ACTIVE entry (R152). -/
def activeEntry (s : State) : Option ScrubEntry := s.scrub.list.find? ScrubEntry.active

/-- Activation (R154): with no ACTIVE entry, the oldest QUEUED one becomes ACTIVE and BREQ is asserted for it, unless
BGNT is still asserted from the grant before. -/
def activate (s : State) : State :=
  if s.activeEntry.isSome ∨ ¬s.scrub.list.any ScrubEntry.isQueued then s
  else s.setScrub { s.scrub with list := activateOldest s.scrub.list, breq := !s.scrub.bgnt }

/-- Put the ACTIVE entry in that state. -/
def setActive (s : State) (st : ScrubState) : State :=
  s.setScrub { s.scrub with list := s.scrub.list.map fun e => if e.active then { e with state := st } else e }

/-- The ACTIVE entry finishes in that state, and is kept only while the supervisor is ATTACHED (R157, R158); the run ends
with BREQ deasserted. -/
def finishActive (s : State) (st : ScrubState) : State :=
  let list :=
    if s.attached s.supmid then
      s.scrub.list.map fun e => if e.active then { e with state := st } else e
    else s.scrub.list.filter fun e => !e.active
  s.setScrub { s.scrub with list := list, breq := false, run := none, flight := none }

/-- The slot and lease that a live entry's handle names. -/
def scrubbed (s : State) (h : Handle) : Option (SlotIx × Lease) :=
  match s.lookup h with
  | some (k, { hold := .scrub o t, range, notices }) => some (k, { hold := .scrub o t, range, notices })
  | _ => none

/-- The byte address just past the last word of the range that a live entry scrubs. -/
def scrubEnd (s : State) (h : Handle) : Nat :=
  match s.scrubbed h with
  | none => 0
  | some (_, l) => (s.pool l.range.pool).spanEnd l.range

end State

/-! ### SCRUB -/

/-- Checks of SCRUB after the handle check (R153). -/
def scrubRefusal (s : State) (l : Lease) : Option Answer :=
  match l.hold with
  | .scrub .. => some (.bare .scrubbing)
  | .tainted .. => if 8 ≤ s.scrub.list.length then some (.bare .listFull) else none
  | _ => some (.bare .wrongState)

/-- A TAINTED hold as SCRUB has it; any other is left as it is (Table 2-2). -/
def Hold.toScrub : Hold → Hold
  | .tainted o t => .scrub o t
  | h => h

/-- SCRUB (R153). -/
def scrubRule (s : State) (m : Mid) : State × Answer :=
  let h := (s.win m).argHandle
  s.onLease (s.supervisorStanding m) h (.bare .stale) fun k l =>
    s.unlessRefused (scrubRefusal s l) <|
      let p := s.pool l.range.pool
      let t := s.setLease k { l with hold := l.hold.toScrub }
      let entry := { handle := h, state := .queued (p.spanStart l.range) }
      let t := (t.setScrub { t.scrub with list := t.scrub.list ++ [entry] }).activate
      (t,
        .items .ok h.toNat s.scrub.list.length
          (flag (t.activeEntry.any fun e => e.handle = h)) (p.spanWords l.range))

def execScrub (m : Mid) (s : State) : Host.Outcome State Fault Refusal :=
  .next (s.serveRequest m Request.scrub.code scrubRule)

/-! ### SET FILL -/

/-- SET FILL (R159). -/
def setFillRule (s : State) (m : Mid) : State × Answer :=
  let f := (s.win m).argFill
  let n := (s.win m).argRunLength
  s.unlessRefused (s.supervisorStanding m) <|
    if n = 0 ∨ 64 < n then (s, .bare .badConfig)
    else
      (s.setScrub { s.scrub with fill := f, runLength := n },
        { result := .ok, val0 := f, val1 := word n, val2 := 0, val3 := 0 })

def execSetFill (m : Mid) (s : State) : Host.Outcome State Fault Refusal :=
  .next (s.serveRequest m Request.setFill.code setFillRule)

/-! ### CLEAR and ADOPT -/

/-- A live entry of that handle. -/
def ScrubEntry.liveFor (h : Handle) (e : ScrubEntry) : Bool := e.state.live && e.handle = h

/-- Remove the live entry of that handle; if it was ACTIVE, BREQ is deasserted (R160). -/
def State.abandon (s : State) (h : Handle) : State :=
  let wasActive := s.scrub.list.any fun e => e.liveFor h && e.active
  s.setScrub
    { s.scrub with
      list := s.scrub.list.filter fun e => !e.liveFor h
      breq := if wasActive then false else s.scrub.breq }

/-- The progress that CLEAR reports: that of the ACTIVE entry it abandons, or zero (R160). -/
def State.abandonedProgress (s : State) (h : Handle) : Nat :=
  match s.scrub.list.find? fun e => e.liveFor h && e.active with
  | none => 0
  | some e => e.state.progress

/-- CLEAR (R160). -/
def clearRule (s : State) (m : Mid) : State × Answer :=
  let h := (s.win m).argHandle
  s.onLease (s.supervisorStanding m) h (.bare .stale) fun k l =>
    if !l.hold.closed then (s, .bare .wrongState)
    else
      let t := if l.hold.state = .scrub then s.abandon h else s
      (((t.freeSlot k).grantPass).activate,
        .items .ok h.toNat l.hold.state.code (if l.hold.state = .scrub then s.abandonedProgress h else 0))

def execClear (m : Mid) (s : State) : Host.Outcome State Fault Refusal :=
  .next (s.serveRequest m Request.clear.code clearRule)

/-- Checks of ADOPT after the handle check (R161). -/
def adoptRefusal (s : State) (m : Mid) (l : Lease) : Option Answer :=
  match l.hold with
  | .scrub .. => some (.bare .scrubbing)
  | .tainted .. =>
    if (s.master m).quota ≤ (s.master m).held + (s.master m).waiting then some (.bare .quota) else none
  | _ => some (.bare .wrongState)

/-- A TAINTED hold as `m`'s own, for `n` ticks, under the former owner's tag; any other is left as it is. -/
def Hold.adopted (h : Hold) (m : Mid) (n : Nat) : Hold :=
  match h with
  | .tainted _ t => .held m t { granted := n, remaining := n, warned := false } []
  | h => h

/-- ADOPT (R161). -/
def adoptRule (s : State) (m : Mid) : State × Answer :=
  let h := (s.win m).argHandle
  s.onLease (s.supervisorStanding m) h (.bare .stale) fun k l =>
    s.unlessRefused (adoptRefusal s m l) <|
      let n := (s.pool l.range.pool).maxTerm
      ((s.setLease k { l with hold := l.hold.adopted m n }).raiseHeld m, .items .ok h.toNat n)

def execAdopt (m : Mid) (s : State) : Host.Outcome State Fault Refusal :=
  .next (s.serveRequest m Request.adopt.code adoptRule)

/-! ### Words and runs -/

/-- Place the word at that address on the bus, with the fill pattern as it stands (R155). -/
def State.placeWord (s : State) (address : Nat) : State :=
  s.setScrub { s.scrub with flight := some { address := address, data := s.scrub.fill } }

/-- The end of a run with words remaining (R155, R156): BREQ is deasserted, and asserted again at once where BGNT stands
deasserted; otherwise that waits for BGNT to be deasserted. -/
def State.endRun (s : State) : State :=
  s.setScrub { s.scrub with run := none, flight := none, breq := !s.scrub.bgnt }

/-- The completion of the ACTIVE entry's scrub (R158). -/
def State.completeScrub (s : State) (h : Handle) : State :=
  let t := s.finishActive .done
  let t :=
    match s.scrubbed h with
    | none => t
    | some (k, _) => t.freeSlot k
  t.grantPass.activate

end Sys2Proof.Machine
end

