-- ==== Sys2Proof/Machine/Bus.lean ====
section
/-! DEFINITION. The bus as the part sees it: which rule a request code runs, how the window serves an access, and
what becomes of a bus transaction (6.1, 10.1, 10.2). -/

namespace Sys2Proof.Machine

/-- The rule of each request, as its owning block carries it out (Table 10-2). -/
def Request.rule : Request → State → Mid → State × Answer
  | .attach => attachRule
  | .detach => detachRule
  | .claim => claimRule
  | .cancel => cancelRule
  | .renew => renewRule
  | .release => releaseRule
  | .downgrade => downgradeRule
  | .upgrade => upgradeRule
  | .lend => lendRule
  | .giveBack => returnRule
  | .recall => recallRule
  | .nextNotice => nextNoticeRule
  | .inspect => inspectRule
  | .status => statusRule
  | .setPool => setPoolRule
  | .setTiming => setTimingRule
  | .setMaster => setMasterRule
  | .setFill => setFillRule
  | .fence => fenceRule
  | .unfence => unfenceRule
  | .clearNote => clearNoteRule
  | .revoke => revokeRule
  | .scrub => scrubRule
  | .clear => clearRule
  | .adopt => adoptRule
  | .softReset => softResetRule

/-- A code that is not in Table 10-2 is answered with UNKNOWN_REQUEST before any standing check (R167). -/
def unknownRule (s : State) (_m : Mid) : State × Answer := (s, .bare .unknownRequest)

/-- The rule that a request code runs. -/
def ruleOf (code : BitVec 8) : State → Mid → State × Answer :=
  match Request.ofCode code with
  | some r => r.rule
  | none => unknownRule

/-- UNKNOWN_REQUEST (R167): `code` is written to REQUEST. -/
def execUnknownRequest (m : Mid) (code : BitVec 8) (s : State) : Host.Outcome State Fault Refusal :=
  .next (s.serveRequest m code (ruleOf code))

/-- The access is a 4-byte one aligned to a multiple of four (R166). -/
def wellFormedAccess (offset : BitVec 8) (size : Nat) : Bool := size = 4 && offset.toNat % 4 = 0

namespace State

/-- A well-formed write to the window, outside a reset and with the bus free (R166): to REQUEST it takes the request of
bits 7:0, to an argument word it replaces that word, and anywhere else it gets the bus error response. -/
def windowWrite (s : State) (m : Mid) (offset : BitVec 8) (data : Word) : State :=
  let w := s.win m
  match offset.toNat with
  | 0x00 => s.serveRequest m (data.extractLsb' 0 8) (ruleOf (data.extractLsb' 0 8))
  | 0x04 => (s.setWin m { w with arg0 := data }).setBus (.ready 0)
  | 0x08 => (s.setWin m { w with arg1 := data }).setBus (.ready 0)
  | 0x0C => (s.setWin m { w with arg2 := data }).setBus (.ready 0)
  | 0x10 => (s.setWin m { w with arg3 := data }).setBus (.ready 0)
  | _ => s.setBus (.error 0)

/-- The window serves an access at an offset of its own (R166). Every bus error response presents zero with a read. A read
of an unassigned offset gets it too, by R109 (DEDUCED: assumption log 14). -/
def serveWindow (s : State) (m : Mid) (offset : BitVec 8) (dir : Direction) (size : Nat) (data : Word) : State :=
  if s.busHeld then s.hold (s.windowTransaction m offset dir size data)
  else if s.inReset ∨ ¬wellFormedAccess offset size then s.setBus (.error 0)
  else
    match dir with
    | .read =>
      if offset.toNat ∈ assignedOffsets then s.setBus (.ready (s.windowWord m offset)) else s.setBus (.error 0)
    | .write => s.windowWrite m offset data

/-- The window offset of an address, if it lies in the window: the window is 256 bytes at a multiple of 256, so address
bits 31:8 tell whether and bits 7:0 where (R165). -/
def windowOffset (s : State) (a : Word) : Option (BitVec 8) :=
  if a.extractLsb' 8 24 = s.wseg ++ 0xFFFFF#20 then some (a.extractLsb' 0 8) else none

/-- One bus transaction of a master (R108 to R110). While the scrub engine holds the bus it waits (R156). A window access is
served by the window and not judged (R109). During a power-on or pin reset every other one passes (R110); otherwise the
judge takes it. -/
def transact (s : State) (m : Mid) (a : Word) (dir : Direction) (size : Nat) (data : Word) : State :=
  match s.windowOffset a with
  | some offset => s.serveWindow m offset dir size data
  | none =>
    if s.busHeld then s.hold { master := m, address := a, dir := dir, size := size, data := data }
    else if s.inReset then s.setBus .passed
    else s.judge m a dir

/-- Take the oldest of the transactions that wait for the end of a scrub run, the others still waiting. -/
def takeOldest (s : State) : State :=
  match s.held with
  | [] => s
  | x :: xs => (s.setHeld xs).transact x.master x.address x.dir x.size x.data

/-- Take the transactions that waited for the end of a scrub run, each in its turn (R156, R162; assumption log 5). -/
def takeHeld (s : State) : State := s.held.foldl (fun t _ => t.takeOldest) s

end State

/-- WINDOW_WRITE (R166): a 4-byte write at that window offset. -/
def execWindowWrite (m : Mid) (offset : BitVec 8) (data : Word) (s : State) : Host.Outcome State Fault Refusal :=
  .next (s.serveWindow m offset .write 4 data)

/-- MALFORMED_WINDOW_ACCESS (R166): an access at that window offset whose form the window does not serve. -/
def execMalformedWindowAccess (m : Mid) (offset : BitVec 8) (dir : Direction) (size : Nat) (data : Word)
    (s : State) : Host.Outcome State Fault Refusal :=
  .next (s.serveWindow m offset dir size data)

/-- ACCESS (R108, R111): a master's transaction on the system bus. -/
def execAccess (m : Mid) (a : Word) (dir : Direction) (size : Nat) (data : Word) (s : State) :
    Host.Outcome State Fault Refusal :=
  .next (s.transact m a dir size data)

end Sys2Proof.Machine
end

