-- ==== Sys2Proof/Machine/Link.lean ====
section
/-! DEFINITION. The events of the scrub link (9.3), and the transactions that the end of a run lets on to the bus. -/

namespace Sys2Proof.Machine

namespace State

/-- A link event takes `s` to `t`: where it ends a run, the transactions that waited for that are taken (R156, R162). -/
def letOn (s t : State) : State := if s.busHeld && !t.busHeld then t.takeHeld else t

/-- BGNT is asserted (R155). With BREQ asserted and no run in progress a run begins for the ACTIVE entry, with the run
length in force as its limit and its first word placed, all within the one step that opcode_table.json gives RUN_START;
otherwise the engine does not drive the bus. -/
def raiseGrant (s : State) : State :=
  let t := s.setScrub { s.scrub with bgnt := true }
  match s.activeEntry with
  | some e =>
    if s.scrub.breq ∧ s.scrub.run = none then
      (t.setScrub
        { t.scrub with run := some { limit := s.scrub.runLength, words := 0, withdrawn := false } }).placeWord
        e.state.progress
    else t
  | none => t

/-- The word in flight is acknowledged (R155). With no word in flight the event does not occur (assumption log 6). -/
def ackWord (s : State) : State :=
  match s.activeEntry, s.scrub.run, s.scrub.flight with
  | some e, some r, some _ =>
    let next := e.state.progress + 4
    if s.scrubEnd e.handle ≤ next then s.completeScrub e.handle
    else
      let t := s.setActive (.active next)
      if r.limit ≤ r.words + 1 ∨ r.withdrawn then t.endRun
      else (t.setScrub { t.scrub with run := some { r with words := r.words + 1 } }).placeWord next
  | _, _, _ => s

/-- The word in flight is answered with the bus error response (R157). With no word in flight the event does not occur
(assumption log 6). -/
def failWord (s : State) : State :=
  match s.activeEntry, s.scrub.run, s.scrub.flight with
  | some e, some _, some w =>
    let t := s.finishActive (.failed w.address)
    let t :=
      match s.scrubbed e.handle with
      | some (k, l) =>
        match l.hold with
        | .scrub o g => t.setLease k { l with hold := .tainted o g }
        | _ => t
      | none => t
    t.activate
  | _, _, _ => s

/-- BGNT is withdrawn (R156). A run with a word in flight goes on until its answer and then ends; a run with none ends at
once. With no run in progress, BREQ is asserted for an ACTIVE entry, whose words remain (R154, R155). -/
def lowerGrant (s : State) : State :=
  let t := s.setScrub { s.scrub with bgnt := false }
  match s.scrub.run, s.scrub.flight with
  | some r, some _ => t.setScrub { t.scrub with run := some { r with withdrawn := true } }
  | some _, none => t.endRun
  | none, _ => if s.activeEntry.isSome then t.setScrub { t.scrub with breq := true } else t

end State

/-- RUN_START (R155). With BGNT asserted already the event does not occur (assumption log 6). -/
def execRunStart (s : State) : Host.Outcome State Fault Refusal := .next (if s.scrub.bgnt then s else s.raiseGrant)

/-- SCRUB_WORD_ACK (R155, R158). -/
def execScrubWordAck (s : State) : Host.Outcome State Fault Refusal := .next (s.letOn s.ackWord)

/-- SCRUB_WRITE_ERROR (R157). -/
def execScrubWriteError (s : State) : Host.Outcome State Fault Refusal := .next (s.letOn s.failWord)

/-- BGNT_DEASSERTED (R156). -/
def execBgntDeasserted (s : State) : Host.Outcome State Fault Refusal := .next (s.letOn s.lowerGrant)

end Sys2Proof.Machine
end

