-- ==== Sys2Proof/Machine/Reset.lean ====
section
/-! DEFINITION. Power-on reset, pin reset and their end (R2, R40, R67, R73, R143, R151, R163, R173, R110). -/

namespace Sys2Proof.Machine

/-- The state a power-on or pin reset leaves while it is in progress: every block at its reset values, the straps
sampled and the cause recorded. The level of BGNT is the arbiter's and the waiting commands are the senders'; the count
that picks free values goes on. -/
def State.resetAs (s : State) (cause : ResetCause) (supmid : Mid) (wseg : BitVec 4) : State :=
  { State.reset with
    scrub := ScrubEngine.reset s.scrub.bgnt
    ticks := { State.reset.ticks with made := s.ticks.made }
    supmid := supmid
    wseg := wseg
    cause := cause
    inReset := true
    pending := s.pending }

/-- POWER_ON_RESET (R143). -/
def execPowerOnReset (supmid : Mid) (wseg : BitVec 4) (s : State) : Host.Outcome State Fault Refusal :=
  .next (s.resetAs .power supmid wseg)

/-- The cause an assertion of RESET_N records: PIN, but POWER while a power-on reset is in progress (R143). -/
def State.pinCause (s : State) : ResetCause := if s.inReset ∧ s.cause = .power then .power else .pin

/-- PIN_RESET (R143). -/
def execPinReset (supmid : Mid) (wseg : BitVec 4) (s : State) : Host.Outcome State Fault Refusal :=
  .next (s.resetAs s.pinCause supmid wseg)

/-- END_OF_RESET (R110): the watch port and the window return to service, and the first tick period begins to be
counted (R73). -/
def execEndOfReset (s : State) : Host.Outcome State Fault Refusal :=
  .next { s with inReset := false }

end Sys2Proof.Machine
end

