-- ==== Sys2Proof/Machine/Dispatch.lean ====
section
/-! DEFINITION. Each command's meaning, one arm per row of the table. -/

namespace Sys2Proof.Machine

def exec (i : Instr) (s : State) : Host.Outcome State Fault Refusal :=
  match i with
  | .attach m => Sys2Proof.Machine.execAttach m s
  | .detach m => Sys2Proof.Machine.execDetach m s
  | .claim m => Sys2Proof.Machine.execClaim m s
  | .cancel m => Sys2Proof.Machine.execCancel m s
  | .renew m => Sys2Proof.Machine.execRenew m s
  | .release m => Sys2Proof.Machine.execRelease m s
  | .downgrade m => Sys2Proof.Machine.execDowngrade m s
  | .upgrade m => Sys2Proof.Machine.execUpgrade m s
  | .lend m => Sys2Proof.Machine.execLend m s
  | .giveBack m => Sys2Proof.Machine.execGiveBack m s
  | .recall m => Sys2Proof.Machine.execRecall m s
  | .nextNotice m => Sys2Proof.Machine.execNextNotice m s
  | .inspect m => Sys2Proof.Machine.execInspect m s
  | .status m => Sys2Proof.Machine.execStatus m s
  | .setPool m => Sys2Proof.Machine.execSetPool m s
  | .setTiming m => Sys2Proof.Machine.execSetTiming m s
  | .setMaster m => Sys2Proof.Machine.execSetMaster m s
  | .setFill m => Sys2Proof.Machine.execSetFill m s
  | .fence m => Sys2Proof.Machine.execFence m s
  | .unfence m => Sys2Proof.Machine.execUnfence m s
  | .clearNote m => Sys2Proof.Machine.execClearNote m s
  | .revoke m => Sys2Proof.Machine.execRevoke m s
  | .scrub m => Sys2Proof.Machine.execScrub m s
  | .clear m => Sys2Proof.Machine.execClear m s
  | .adopt m => Sys2Proof.Machine.execAdopt m s
  | .softReset m => Sys2Proof.Machine.execSoftReset m s
  | .unknownRequest m code => Sys2Proof.Machine.execUnknownRequest m code s
  | .windowWrite m offset data => Sys2Proof.Machine.execWindowWrite m offset data s
  | .malformedWindowAccess m offset dir size data => Sys2Proof.Machine.execMalformedWindowAccess m offset dir size data s
  | .access m a dir size data => Sys2Proof.Machine.execAccess m a dir size data s
  | .tick => Sys2Proof.Machine.execTick s
  | .leaseTableTick => Sys2Proof.Machine.execLeaseTableTick s
  | .claimQueueTick => Sys2Proof.Machine.execClaimQueueTick s
  | .termExpiry k => Sys2Proof.Machine.execTermExpiry k s
  | .graceEnd k => Sys2Proof.Machine.execGraceEnd k s
  | .sharerExpiry k m => Sys2Proof.Machine.execSharerExpiry k m s
  | .waitLimitExpiry m tag => Sys2Proof.Machine.execWaitLimitExpiry m tag s
  | .runStart => Sys2Proof.Machine.execRunStart s
  | .scrubWordAck => Sys2Proof.Machine.execScrubWordAck s
  | .scrubWriteError => Sys2Proof.Machine.execScrubWriteError s
  | .bgntDeasserted => Sys2Proof.Machine.execBgntDeasserted s
  | .powerOnReset supmid wseg => Sys2Proof.Machine.execPowerOnReset supmid wseg s
  | .pinReset supmid wseg => Sys2Proof.Machine.execPinReset supmid wseg s
  | .endOfReset => Sys2Proof.Machine.execEndOfReset s

end Sys2Proof.Machine
end

