-- ==== Sys2Proof/Safety.lean ====
section
/-! DEFINITION. The laws the manual states over the whole part, as predicates of a state: what every state of a safe
run satisfies. Each is the sentence of the rule it cites, about the records as the model holds them. -/

namespace Sys2Proof.Machine.State

/-- The coverage law of R26, with what R47 says of SHARED leases: two leases whose ranges overlap are both SHARED,
and their ranges are not the same. -/
def CoverageLaw (s : State) : Prop :=
  ∀ i j : SlotIx, ∀ l ∈ s.lease i, ∀ l' ∈ s.lease j, i ≠ j → l.range.overlaps l'.range = true →
    l.hold.mode = .shared ∧ l'.hold.mode = .shared ∧ l.range ≠ l'.range

/-- The chain and the sharer list of a lease (R28, R30): at most three frames, owner and delegates all distinct; one
to eight sharers, no master twice. -/
def HoldShape (h : Hold) : Prop :=
  match h with
  | .held o _ _ c => c.length ≤ 3 ∧ (o :: c).Nodup
  | .grace o _ _ c _ => c.length ≤ 3 ∧ (o :: c).Nodup
  | .shared es => es ≠ [] ∧ es.length ≤ 8 ∧ (es.map Sharer.master).Nodup
  | _ => True

/-- Every lease has a chain or sharer list as R28 and R30 say, and every range of a lease or a claim-queue entry has
a granule. -/
def ShapeLaw (s : State) : Prop :=
  (∀ k : SlotIx, ∀ l ∈ s.lease k, HoldShape l.hold ∧ 0 < l.range.count) ∧
    ∀ e ∈ s.queue, 0 < e.claim.range.count

/-- The queue law of R54: at most sixteen entries, at most four of one master, and one master's entries carry distinct
tags. -/
def QueueLaw (s : State) : Prop :=
  s.queue.length ≤ 16 ∧ (∀ m : Mid, s.entriesOf m ≤ 4) ∧
    s.queue.Pairwise fun e f => e.claim.master = f.claim.master → e.claim.tag ≠ f.claim.tag

/-- The held count R128 defines: the leases `m` owns in HELD or GRACE and its sharer entries. -/
def heldNow (s : State) (m : Mid) : Nat :=
  (allSlots.map fun k =>
    match s.lease k with
    | none => 0
    | some l => l.hold.holders.count m).sum

/-- The waiting count R128 defines: `m`'s WAITING entries. -/
def waitingNow (s : State) (m : Mid) : Nat := s.queue.countP fun e => e.isWaiting && e.claim.master = m

/-- The count and quota law of R128: the two counts are what they count, and together they never exceed the quota. -/
def QuotaLaw (s : State) : Prop :=
  ∀ m : Mid, (s.master m).held = s.heldNow m ∧ (s.master m).waiting = s.waitingNow m ∧
    (s.master m).held + (s.master m).waiting ≤ (s.master m).quota

/-- `m` has nothing (R126): no lease of its own, no membership, no frame, no claim-queue entry, no notice, no orphan. -/
def HoldsNothing (s : State) (m : Mid) : Prop :=
  (∀ k : SlotIx, ∀ l ∈ s.lease k,
      l.hold.owner? ≠ some m ∧ l.hold.shares m = false ∧ m ∉ l.hold.chain ∧ l.notices[m] = none) ∧
    (∀ e ∈ s.queue, e.claim.master ≠ m) ∧ (s.master m).orphan = none

/-- The attachment law of R126 and R144: a master that is not ATTACHED has nothing, and while the supervisor is not
ATTACHED no finished scrub entry is kept. -/
def AttachmentLaw (s : State) : Prop :=
  (∀ m : Mid, s.attached m = false → s.HoldsNothing m) ∧
    (s.attached s.supmid = false → ∀ e ∈ s.scrub.list, e.finished = false)

/-- The threshold law of R135: a master other than the supervisor whose count meets a threshold above 0 is FENCED. -/
def ThresholdLaw (s : State) : Prop :=
  ∀ m : Mid, m ≠ s.supmid → 0 < (s.master m).threshold → (s.master m).threshold ≤ (s.master m).violations →
    (s.master m).state = .fenced

/-- The supervisor is never fenced (R125). -/
def SupervisorLaw (s : State) : Prop := (s.master s.supmid).state ≠ .fenced

/-- The pool law of R12: enabled pools share no byte with one another or with the command window. -/
def PoolLaw (s : State) : Prop :=
  ∀ p : PoolIx, (s.pool p).enabled = true →
    s.meetsWindow (s.pool p).base.toNat (s.pool p).top = false ∧
      ∀ q : PoolIx, q ≠ p → (s.pool q).enabled = true →
        spansMeet (s.pool p).base.toNat (s.pool p).top (s.pool q).base.toNat (s.pool q).top = false

/-- A range lies inside an enabled pool (R5, R10). -/
def InEnabledPool (s : State) (r : Range) : Prop :=
  (s.pool r.pool).enabled = true ∧ r.first + r.count ≤ (s.pool r.pool).size

/-- Every lease and every claim-queue entry names an enabled pool and lies inside it (R10, R15, R54). -/
def RangeLaw (s : State) : Prop :=
  (∀ k : SlotIx, ∀ l ∈ s.lease k, s.InEnabledPool l.range) ∧ ∀ e ∈ s.queue, s.InEnabledPool e.claim.range

/-- The scrub law of R152: at most one entry is ACTIVE, and while one is QUEUED one is (R154); a lease is in SCRUB exactly
when a live entry names it, and then one does; BREQ is asserted, and a run is in progress, only while an entry is
ACTIVE; a word is in flight exactly while a run is in progress (R155); and a master's transaction waits only then (MODEL'S
CHOICE: R156 has it wait until the run ends, and the model takes it as soon as it does, assumption log 5). -/
def ScrubLaw (s : State) : Prop :=
  s.scrub.list.countP ScrubEntry.active ≤ 1 ∧
    (s.scrub.list.any ScrubEntry.isQueued = true → s.activeEntry.isSome = true) ∧
    (∀ k : SlotIx, ∀ l ∈ s.lease k, l.hold.state = .scrub →
      s.scrub.list.countP (ScrubEntry.liveFor (s.handle k)) = 1) ∧
    (∀ e ∈ s.scrub.list, e.state.live = true → (s.scrubbed e.handle).isSome = true) ∧
    (s.scrub.breq = true → s.activeEntry.isSome = true) ∧
    (s.scrub.run.isSome = true → s.activeEntry.isSome = true) ∧
    s.scrub.flight.isSome = s.scrub.run.isSome ∧ (s.held ≠ [] → s.scrub.run.isSome = true)

/-- A term that runs: at least one tick left, and no more than was granted. -/
def TermRuns (n : Term) : Prop := 1 ≤ n.remaining ∧ n.remaining ≤ n.granted

/-- The terms of a hold are in the ranges of Table 2-1 and R30. -/
def HoldTerms (h : Hold) : Prop :=
  match h with
  | .held _ _ n _ => TermRuns n
  | .grace _ _ n _ left => n.remaining = 0 ∧ 1 ≤ n.granted ∧ 1 ≤ left
  | .shared es => ∀ e ∈ es, TermRuns e.term
  | _ => True

/-- The term law: no count a tick lowers stands at its end, and nothing that a term can start from is 0 (Table 1-1,
Table 2-1, Table 3-4). -/
def TermLaw (s : State) : Prop :=
  (∀ k : SlotIx, ∀ l ∈ s.lease k, HoldTerms l.hold) ∧
    (∀ e ∈ s.queue, 1 ≤ e.claim.term ∧ (e.isWaiting = true → 1 ≤ e.left)) ∧
    ∀ p : PoolIx, 1 ≤ (s.pool p).maxTerm

/-! ### The words in which statements say what a command does -/

/-- A master's transaction is served: no power-on or pin reset is in progress and the scrub engine does not hold the bus
(R110, R156). -/
def Served (s : State) : Prop := s.inReset = false ∧ s.busHeld = false

/-- `t` shows `m` the answer `a` to a request of that code written in `s`, and the write has completed with READY: the
slot of `m` holds the code, the count raised by one, the arguments as they stood, and the answer (R167 to R169), and no
other master's slot has changed. That READY carries zero on a write is the model's (assumption log 10). -/
def Answered (s t : State) (m : Mid) (code : BitVec 8) (a : Answer) : Prop :=
  t.win m =
      { s.win m with
        lastCode := code
        seq := (s.win m).seq + 1
        result := a.result.code
        answered := code
        val0 := a.val0
        val1 := a.val1
        val2 := a.val2
        val3 := a.val3 } ∧
    (∀ n, n ≠ m → t.win n = s.win n) ∧ t.bus = .ready 0

/-- The command completes with that answer and changes nothing but the requester's window slot. -/
def AnsweredOnly (s : State) (c : Instr) (m : Mid) (code : BitVec 8) (a : Answer) : Prop :=
  ∃ t, exec c s = .next t ∧ t = { s with window := t.window, bus := t.bus } ∧ s.Answered t m code a

/-- The command completes with result OK. -/
def CompletesOk (s : State) (c : Instr) (m : Mid) : Prop :=
  ∃ t, exec c s = .next t ∧ (t.win m).result = Result.ok.code

/-- The first of the checks whose condition holds gives the answer; when none holds, `otherwise` does. -/
def FirstOf (rows : List (Prop × Answer)) (answer : Answer → Prop) (otherwise : Prop) : Prop :=
  match rows with
  | [] => otherwise
  | (c, a) :: rows => (c → answer a) ∧ (¬c → FirstOf rows answer otherwise)

/-- The handle in the argument words of `m` names the lease `l` of slot `k` (R21, R22). -/
def Names (s : State) (m : Mid) (k : SlotIx) (l : Lease) : Prop :=
  (s.win m).argHandle = s.handle k ∧ s.lease k = some l

/-- The handle in the argument words of `m` fails the check of R22. -/
def NamesNothing (s : State) (m : Mid) : Prop :=
  Handle.middle (s.win m).argHandle ≠ 0 ∨ s.lease (Handle.slot (s.win m).argHandle) = none ∨
    Handle.gen (s.win m).argHandle ≠ (s.slot (Handle.slot (s.win m).argHandle)).gen

/-- Only slot `k` differs: it holds the lease `l` under its old generation. -/
def LeaseBecomes (s t : State) (k : SlotIx) (l : Option Lease) : Prop :=
  t.slot k = { gen := (s.slot k).gen, lease := l } ∧ ∀ j, j ≠ k → t.slot j = s.slot j

/-- Only the record of `m` differs. -/
def MasterBecomes (s t : State) (m : Mid) (x : Master) : Prop :=
  t.master m = x ∧ ∀ n, n ≠ m → t.master n = s.master n

/-- The command completes with that answer, and beside the requester's window slot it changes the lease of slot `k`
alone. -/
def Rewrites (s : State) (c : Instr) (m : Mid) (code : BitVec 8) (a : Answer) (k : SlotIx) (l : Lease) : Prop :=
  ∃ t, exec c s = .next t ∧ t = { s with slots := t.slots, window := t.window, bus := t.bus } ∧
    s.LeaseBecomes t k (some l) ∧ s.Answered t m code a

/-- `t` is what a grant pass makes of `u`, but for the window and the bus. -/
def PassOf (u t : State) : Prop := t = { u.grantPass with window := t.window, bus := t.bus }

/-- A notice set after a notice of that kind is raised for those of the masters that are ATTACHED (R33). -/
def raised (s : State) (ns : NoticeSet) (n : NoticeKind) (ms : List Mid) : NoticeSet :=
  Vector.ofFn fun m : Fin 8 => if m ∈ ms ∧ s.attached m then some n else ns[m]

/-- A master's orphan field after the notices of a freed slot have moved (R34). -/
def orphanAfter (x : Master) (h : Handle) (n : Option NoticeKind) : Option Orphan :=
  match n with
  | none => x.orphan
  | some n => some { handle := h, kind := n }

/-- The slots in `freed` have become FREE in rising order, their notices as given: what the orphan field of `n` holds
(R34, R145). -/
def OrphansOf (s u : State) (freed : SlotIx → Option NoticeSet) (n : Mid) : Prop :=
  (∀ k ns x, freed k = some ns → ns[n] = some x → (∀ j ns', k < j → freed j = some ns' → ns'[n] = none) →
      (u.master n).orphan = some { handle := s.handle k, kind := x }) ∧
    ((∀ k ns, freed k = some ns → ns[n] = none) → (u.master n).orphan = (s.master n).orphan)

/-- The clamped term of a claim or a renewal (R8). -/
def clampTerm (s : State) (p : PoolIx) (n : Nat) : Nat := min n (s.pool p).maxTerm

/-- The span of an enabled pool holds the address (R4, R6). -/
def Governs (s : State) (a : Word) (p : PoolIx) : Prop :=
  (s.pool p).enabled = true ∧ (s.pool p).base.toNat ≤ a.toNat ∧ a.toNat < (s.pool p).top

/-- The lease `l` of slot `k` covers the address: its pool governs it, and the bytes of its range hold it (R5, R24). -/
def Covers (s : State) (a : Word) (k : SlotIx) (l : Lease) : Prop :=
  s.lease k = some l ∧ s.Governs a l.range.pool ∧ (s.pool l.range.pool).spanStart l.range ≤ a.toNat ∧
    a.toNat < (s.pool l.range.pool).spanEnd l.range

/-- The access goes on to its target and changes nothing here (R118). -/
def Passes (s : State) (c : Instr) : Prop := exec c s = .next { s with bus := .passed }

/-- The access is answered with the bus error response for that reason and slot, with zero on the data lines, and its
report is handled (R119). -/
def Refuses (s : State) (m : Mid) (a : Word) (dir : Direction) (size : Nat) (data : Word) (r : Reason)
    (k : Option SlotIx) : Prop :=
  exec (.access m a dir size data) s =
    .next { s.reportRefusal m { address := a, dir := dir, reason := r, slot := k } with bus := .refused r k 0 }

/-- The claim in the argument words of `m` passes checks 1 to 8 of Table 3-2. -/
def ClaimPasses (s : State) (m : Mid) : Prop :=
  let a := (s.win m).claimArgs
  s.attached m = true ∧ (s.pool a.range.pool).enabled = true ∧ 1 ≤ a.range.count ∧ a.range.count ≤ 4096 ∧
    a.range.first + a.range.count ≤ (s.pool a.range.pool).size ∧ a.term ≠ 0 ∧
    (∀ e ∈ s.queue, e.claim.master = m → e.claim.tag ≠ a.tag) ∧
    (∀ k, ∀ l ∈ s.lease k, l.range.overlaps a.range = true →
      l.hold.role m = .outsider ∨ l.hold.role m = .formerOwner) ∧
    (∀ e ∈ s.queue, e.isWaiting = true → e.claim.master = m → e.claim.range.overlaps a.range = false) ∧
    (s.master m).held + (s.master m).waiting < (s.master m).quota

/-- A lease that blocks a claim of that mode over that range: they overlap and one of the two is EXCLUSIVE (R25, R47). -/
def LeaseBlocks (mode : Mode) (r : Range) (l : Lease) : Prop :=
  l.range.overlaps r = true ∧ (mode = .exclusive ∨ l.hold.mode = .exclusive)

/-- A claim-queue entry that blocks a younger claim of that mode over that range: it is WAITING, they overlap, and one of
the two is EXCLUSIVE (R47). -/
def EntryBlocks (mode : Mode) (r : Range) (e : ClaimEntry) : Bool :=
  e.isWaiting && e.claim.range.overlaps r && (mode = .exclusive || e.claim.mode = .exclusive)

/-- Some lease blocks such a claim (R47). -/
def BlockedByLease (s : State) (mode : Mode) (r : Range) : Prop := ∃ k, ∃ l ∈ s.lease k, LeaseBlocks mode r l

/-- Such a claim is short of a slot: none is FREE, and it has no SHARED lease of exactly its range to join (R47). -/
def ShortOfSlot (s : State) (mode : Mode) (r : Range) : Prop :=
  (∀ k, s.lease k ≠ none) ∧
    (mode = .shared → ∀ k, ∀ l ∈ s.lease k, l.hold.mode = .shared → l.range ≠ r)

/-- The blocking slot of such a claim as an answer reports it: the lowest-numbered slot whose lease blocks it, or 32
(R52). -/
def BlockingSlot (s : State) (mode : Mode) (r : Range) (slot : Nat) : Prop :=
  (∀ k l, s.lease k = some l → LeaseBlocks mode r l →
    (∀ j l', j < k → s.lease j = some l' → ¬LeaseBlocks mode r l') → slot = k.val) ∧
    (¬s.BlockedByLease mode r → slot = 32)

/-- A grant pass that comes to an entry with `older` still in the queue before it passes over it (R47, R62): the entry is
ENDED, or blocked by a lease, by an older WAITING entry or by the want of a slot, or it overlaps a lease in which its own
master holds a role other than former owner. -/
def PassedOver (s : State) (older : List ClaimEntry) (e : ClaimEntry) : Prop :=
  let c := e.claim
  e.isWaiting = false ∨ s.BlockedByLease c.mode c.range ∨ (∃ x ∈ older, EntryBlocks c.mode c.range x = true) ∨
    s.ShortOfSlot c.mode c.range ∨
    ∃ k, ∃ l ∈ s.lease k, l.range.overlaps c.range = true ∧ l.hold.role c.master ≠ .outsider ∧
      l.hold.role c.master ≠ .formerOwner

/-- What granting the entry `e` in a pass leaves, `rest` being the queue without it (R63): slot `k` as given, the counts of
its master moved, and nothing else changed. -/
def GrantedInPass (s u : State) (e : ClaimEntry) (rest : List ClaimEntry) (k : SlotIx) (x : Slot) : Prop :=
  let m := e.claim.master
  u = { s with slots := u.slots, queue := rest, masters := u.masters } ∧ u.slot k = x ∧
    (∀ j, j ≠ k → u.slot j = s.slot j) ∧
    s.MasterBecomes u m { s.master m with held := (s.master m).held + 1, waiting := (s.master m).waiting - 1 }

end Sys2Proof.Machine.State

/-- What activation makes of an engine without an ACTIVE entry (R154): the oldest QUEUED entry becomes ACTIVE with BREQ
asserted, but for BGNT still standing; without a QUEUED entry nothing changes. -/
def Sys2Proof.Machine.ScrubEngine.ActivatesTo (e e' : ScrubEngine) : Prop :=
  (∀ older q younger p, e.list = older ++ q :: younger → q.state = .queued p →
      (∀ x ∈ older, x.isQueued = false) →
      e' = { e with list := older ++ { q with state := .active p } :: younger, breq := !e.bgnt }) ∧
    ((∀ x ∈ e.list, x.isQueued = false) → e' = e)

namespace Sys2Proof.Machine.Request

/-- The command that is the write of this request's code by `m`. -/
def command (r : Request) (m : Mid) : Instr :=
  match r with
  | .attach => .attach m
  | .detach => .detach m
  | .claim => .claim m
  | .cancel => .cancel m
  | .renew => .renew m
  | .release => .release m
  | .downgrade => .downgrade m
  | .upgrade => .upgrade m
  | .lend => .lend m
  | .giveBack => .giveBack m
  | .recall => .recall m
  | .nextNotice => .nextNotice m
  | .inspect => .inspect m
  | .status => .status m
  | .setPool => .setPool m
  | .setTiming => .setTiming m
  | .setMaster => .setMaster m
  | .setFill => .setFill m
  | .fence => .fence m
  | .unfence => .unfence m
  | .clearNote => .clearNote m
  | .revoke => .revoke m
  | .scrub => .scrub m
  | .clear => .clear m
  | .adopt => .adopt m
  | .softReset => .softReset m

/-- The supervisor requests (R125). -/
def supervisors : List Request :=
  [.setPool, .setTiming, .setMaster, .setFill, .fence, .unfence, .clearNote, .revoke, .scrub, .clear, .adopt,
    .softReset]

/-- The requests a DETACHED master may issue (R126, R127). -/
def free : List Request := [.attach, .status, .inspect, .nextNotice]

/-- The six requests of Section 5. -/
def lending : List Request := [.release, .downgrade, .upgrade, .lend, .giveBack, .recall]

/-- The requests that name a handle (R22). -/
def handles : List Request :=
  [.renew, .release, .downgrade, .upgrade, .lend, .giveBack, .recall, .revoke, .scrub, .clear, .adopt]

end Sys2Proof.Machine.Request

namespace Sys2Proof.Machine.State

/-- The first three checks of the six requests of Section 5: FENCED, NOT_ATTACHED and STALE; a request that passes them
names a lease, and then `named` holds of it. -/
def LendingEntry (s : State) (r : Request) (m : Mid) (named : SlotIx → Lease → Prop) : Prop :=
  let h := (s.win m).argHandle
  FirstOf
    [ ((s.master m).state = .fenced, .bare .fenced), ((s.master m).state = .detached, .bare .notAttached),
      (s.NamesNothing m,
        .items .stale h.toNat (s.slot (Handle.slot h)).gen.toNat (s.slot (Handle.slot h)).state.code) ]
    (s.AnsweredOnly (r.command m) m r.code) (∃ k l, s.Names m k l ∧ named k l)

end Sys2Proof.Machine.State
end

