-- ==== Sys2Proof/Certificates/Slice0/Obligations.lean ====
section
/-! DEFINITION. The statements for the provers, in the words of Safety.lean. `Answered`, `AnsweredOnly` and `Rewrites`
carry a command's answer and its frame; `t = { s with … }` says which fields alone a command can change. -/

open Sys2Proof Sys2Proof.Machine

/-! ### The queue of commands, the window and the standing checks -/

/-- A step takes the command at the front of the queue and is that command on the state with the queue's rest. -/
def Obligations.StepRunsFrontCommand : Prop :=
  ∀ (s : State) (c : Instr) (rest : List Instr),
    step (s.setPending (c :: rest)) = exec c (s.setPending rest)

/-- A step with no command waiting: nothing during a reset; else a block takes a tick that is due, in either order; else
one REFCLK period is counted, and the one that completes the tick period makes a tick. MODEL'S CHOICE: assumption logs
2 and 4 (the table has no row for the passing of time). -/
def Obligations.IdleStepPassesTime : Prop :=
  ∀ s : State,
    let q := s.setPending []
    (s.inReset = true → step q = .next q) ∧
      (s.inReset = false →
        (0 < s.ticks.tableDue → s.ticks.queueDue = 0 → step q = exec .leaseTableTick q) ∧
        (s.ticks.tableDue = 0 → 0 < s.ticks.queueDue → step q = exec .claimQueueTick q) ∧
        (0 < s.ticks.tableDue → 0 < s.ticks.queueDue →
          step q = exec .leaseTableTick q ∨ step q = exec .claimQueueTick q) ∧
        (s.ticks.tableDue = 0 → s.ticks.queueDue = 0 →
          (s.time.periodCount + 1 < s.time.periodLength →
            step q = .next { q with time := { s.time with periodCount := s.time.periodCount + 1 } }) ∧
          (s.time.periodLength ≤ s.time.periodCount + 1 → step q = exec .tick q)))

/-- The machine after reset satisfies every law of Safety.lean. Its straps and the level of BGNT, and that no transaction
waits, are MODEL'S CHOICES: assumption logs 3 and 5. -/
def Obligations.ResetMeetsLaws : Prop :=
  State.reset.CoverageLaw ∧ State.reset.ShapeLaw ∧ State.reset.QueueLaw ∧ State.reset.QuotaLaw ∧
    State.reset.AttachmentLaw ∧ State.reset.ThresholdLaw ∧ State.reset.SupervisorLaw ∧ State.reset.PoolLaw ∧
    State.reset.RangeLaw ∧ State.reset.ScrubLaw ∧ State.reset.TermLaw

/-- A request is the aligned 4-byte write of its code to offset 0x00 of the window, by the window's own command or by an
access at its address, bits 31:8 being ignored; an access at any window address is the window's. During a scrub run each of
them waits and is kept with its data (MODEL'S CHOICE of that form: assumption log 5). -/
def Obligations.RequestIsWriteOfItsCode : Prop :=
  (∀ (s : State) (m : Mid) (r : Request) (data : Word), data.extractLsb' 0 8 = r.code →
    (s.busHeld = true → data = r.code.setWidth 32) →
    exec (.windowWrite m 0 data) s = exec (r.command m) s ∧
      exec (.access m (BitVec.ofNat 32 s.windowBase) .write 4 data) s = exec (r.command m) s) ∧
    ∀ (s : State) (m : Mid) (offset : BitVec 8) (dir : Direction) (size : Nat) (data : Word),
      exec (.access m (BitVec.ofNat 32 (s.windowBase + offset.toNat)) dir size data) s =
        exec (.malformedWindowAccess m offset dir size data) s

/-- The standing checks of R127, for every request: FENCED, then NOT_ATTACHED, then NOT_SUPERVISOR; NEXT NOTICE of a
DETACHED requester answers NO_NOTICE. The value words read zero, but for ATTACH, which reports the context, and for CLAIM,
which reports its tag (DEDUCED from Table 3-3 against R169: assumption log 1). -/
def Obligations.StandingChecks : Prop :=
  ∀ (s : State) (m : Mid) (r : Request), s.Served →
    let tag := (s.win m).claimArgs.tag.toNat
    ((s.master m).state = .fenced → r ≠ .status →
      s.AnsweredOnly (r.command m) m r.code
        (if r = .attach then s.context m .fenced
        else if r = .claim then claimAnswer .fenced tag
        else .bare .fenced)) ∧
    ((s.master m).state = .detached → r ∉ Request.free →
      s.AnsweredOnly (r.command m) m r.code
        (if r = .claim then claimAnswer .notAttached tag else .bare .notAttached)) ∧
    ((s.master m).state = .detached → s.AnsweredOnly (.nextNotice m) m 0x20 (.bare .noNotice)) ∧
    ((s.master m).state = .attached → m ≠ s.supmid → r ∈ Request.supervisors →
      s.AnsweredOnly (r.command m) m r.code (.bare .notSupervisor))

/-- A handle is its slot's number plus 256 times its generation, and a request that passes its standing checks with a
handle that names nothing is answered STALE and changes nothing, the six requests of Section 5 reporting the handle and
the slot's generation and state. -/
def Obligations.StaleHandles : Prop :=
  (∀ (g : BitVec 8) (k : SlotIx), (handleOf g k).toNat = 256 * g.toNat + k.val) ∧
    ∀ (s : State) (m : Mid) (r : Request), s.Served → (s.master m).state = .attached →
      (r ∈ Request.supervisors → m = s.supmid) → r ∈ Request.handles → s.NamesNothing m →
        let h := (s.win m).argHandle
        s.AnsweredOnly (r.command m) m r.code
          (if r ∈ Request.lending then
            .items .stale h.toNat (s.slot (Handle.slot h)).gen.toNat (s.slot (Handle.slot h)).state.code
          else .bare .stale)

/-- A code that is not in Table 10-2 is answered UNKNOWN_REQUEST in every state of the requester, and changes nothing
outside the slot. -/
def Obligations.UnknownRequestAnswered : Prop :=
  ∀ (s : State) (m : Mid) (code : BitVec 8), s.Served → Request.ofCode code = none →
    s.AnsweredOnly (.unknownRequest m code) m code (.bare .unknownRequest)

/-- A write to ARG0 to ARG3 replaces that word of the writer's slot; a write to any other word but REQUEST, and every
malformed access, gets the bus error response, with zero on the data lines, and changes nothing; so does every window access
during a reset (whose data lines are the model's reading: assumption log 10). -/
def Obligations.WindowWrites : Prop :=
  ∀ (s : State) (m : Mid) (data : Word), s.busHeld = false →
    (s.inReset = false →
      (∀ (offset : BitVec 8) (w : WindowSlot),
        (offset, w) ∈
            [(0x04#8, { s.win m with arg0 := data }), (0x08#8, { s.win m with arg1 := data }),
              (0x0C#8, { s.win m with arg2 := data }), (0x10#8, { s.win m with arg3 := data })] →
        ∃ t, exec (.windowWrite m offset data) s = .next t ∧ t = { s with window := t.window, bus := t.bus } ∧
          t.win m = w ∧ (∀ n, n ≠ m → t.win n = s.win n) ∧ t.bus = .ready 0) ∧
      (∀ offset : BitVec 8, offset ∉ [0x00#8, 0x04#8, 0x08#8, 0x0C#8, 0x10#8] →
        exec (.windowWrite m offset data) s = .next { s with bus := .error 0 })) ∧
    (∀ (offset : BitVec 8) (dir : Direction) (size : Nat),
      s.inReset = true ∨ size ≠ 4 ∨ offset.toNat % 4 ≠ 0 →
        exec (.malformedWindowAccess m offset dir size data) s = .next { s with bus := .error 0 })

/-- What an aligned 4-byte read of each window word presents (Tables 10-1, 10-7 and 10-8), as numbers in bit fields; one of
an unassigned offset presents zero with the bus error response (DEDUCED from R109 and R166: assumption log 14). A read
changes nothing. -/
def Obligations.WindowReads : Prop :=
  ∀ (s : State) (m : Mid) (data : Word), s.Served →
    let assigned :=
      [0x00#8, 0x04#8, 0x08#8, 0x0C#8, 0x10#8, 0x20#8, 0x24#8, 0x28#8, 0x2C#8, 0x30#8, 0x40#8, 0x80#8, 0x84#8,
        0x88#8, 0x8C#8]
    ∃ read : BitVec 8 → Word,
      (∀ offset : BitVec 8, offset.toNat % 4 = 0 →
        exec (.access m (BitVec.ofNat 32 (s.windowBase + offset.toNat)) .read 4 data) s =
          .next { s with bus := if offset ∈ assigned then .ready (read offset) else .error 0 }) ∧
      (read 0x00).toNat = (s.win m).lastCode.toNat ∧
      read 0x04 = (s.win m).arg0 ∧ read 0x08 = (s.win m).arg1 ∧ read 0x0C = (s.win m).arg2 ∧
      read 0x10 = (s.win m).arg3 ∧
      (read 0x20).toNat =
        (s.win m).result.toNat + 2 ^ 8 * (s.win m).answered.toNat + 2 ^ 16 * (s.win m).seq.toNat ∧
      read 0x24 = (s.win m).val0 ∧ read 0x28 = (s.win m).val1 ∧ read 0x2C = (s.win m).val2 ∧
      read 0x30 = (s.win m).val3 ∧ read 0x40 = s.mstat m ∧ read 0x80 = 0x7E100832#32 ∧
      (read 0x84).toNat = s.cause.code + 2 ^ 4 * s.supmid.val + 2 ^ 8 * s.wseg.toNat ∧
      field (read 0x88) 0 6 = allSlots.countP (fun k => (s.lease k).isSome) ∧
      field (read 0x88) 8 5 = s.queue.length % 32 ∧ field (read 0x88) 16 4 = s.scrub.list.length % 16 ∧
      (∀ p : PoolIx, field (read 0x88) (24 + p.val) 1 = flag (s.pool p).enabled) ∧
      field (read 0x88) 28 1 = flag s.scrub.breq ∧
      field (read 0x8C) 0 16 = s.time.divider % 2 ^ 16 ∧ field (read 0x8C) 16 8 = s.time.warnLevel % 2 ^ 8 ∧
      field (read 0x8C) 24 8 = s.time.graceLength % 2 ^ 8

/-! ### Attachment and the master's context -/

/-- ATTACH in each state of the requester; its answer reports the context whatever the result, as the request leaves it
(assumption log 8). -/
def Obligations.AttachByState : Prop :=
  ∀ (s : State) (m : Mid), s.Served →
    ((s.master m).state = .detached →
      ∃ t, exec (.attach m) s = .next t ∧
        t = { s with masters := t.masters, window := t.window, bus := t.bus } ∧
        s.MasterBecomes t m { s.master m with state := .attached } ∧ s.Answered t m 0x01 (t.context m .ok)) ∧
    ((s.master m).state = .attached → s.AnsweredOnly (.attach m) m 0x01 (s.context m .alreadyAttached)) ∧
    ((s.master m).state = .fenced → s.AnsweredOnly (.attach m) m 0x01 (s.context m .fenced))

/-- STATUS is answered OK in every state of the requester, changes nothing, and reports the requester's own context:
VAL0 is the word the MSTAT word of the window presents, with the fields of Table 10-7, and VAL1 and VAL2 report the
refusal note. -/
def Obligations.StatusReportsContext : Prop :=
  ∀ (s : State) (m : Mid), s.Served →
    ∃ a : Answer, a.result = .ok ∧ s.AnsweredOnly (.status m) m 0x22 a ∧ a.val0 = s.windowWord m 0x40 ∧
      field a.val0 0 2 = (s.master m).state.code ∧ field a.val0 2 1 = flag (m = s.supmid) ∧
      field a.val0 3 1 = flag (s.atn m) ∧ field a.val0 4 4 = (s.master m).threshold % 16 ∧
      field a.val0 8 6 = (s.master m).quota % 64 ∧ field a.val0 14 1 = flag (s.master m).orphan.isSome ∧
      field a.val0 15 1 = flag (s.master m).note.isSome ∧ field a.val0 16 6 = (s.master m).held % 64 ∧
      field a.val0 24 3 = (s.master m).waiting % 8 ∧ field a.val0 28 4 = (s.master m).violations % 16 ∧
      ((s.master m).note = none → a.val1 = 0 ∧ a.val2 = 0) ∧
      (∀ n, (s.master m).note = some n →
        field a.val1 0 3 = n.reason.code ∧ field a.val1 4 1 = dirCode n.dir ∧
          field a.val1 8 6 = slotCode n.slot ∧ field a.val1 31 1 = 1 ∧ a.val2 = n.address) ∧
      a.val3 = 0

/-- The two checks of DETACH after the standing checks: LENT for an owned lease with delegates, then IN_CHAIN for a
frame, each with the handle of the lowest-numbered such lease, and nothing changed. -/
def Obligations.DetachChecks : Prop :=
  ∀ (s : State) (m : Mid), s.Served → (s.master m).state = .attached →
    let lent := fun l : Lease => l.hold.owner? = some m ∧ l.hold.chain ≠ []
    (∀ k l, s.lease k = some l → lent l → (∀ j l', j < k → s.lease j = some l' → ¬lent l') →
      s.AnsweredOnly (.detach m) m 0x02 (.items .lent (s.handle k).toNat)) ∧
    ((∀ k l, s.lease k = some l → ¬lent l) →
      ∀ k l, s.lease k = some l → m ∈ l.hold.chain →
        (∀ j l', j < k → s.lease j = some l' → m ∉ l'.hold.chain) →
          s.AnsweredOnly (.detach m) m 0x02 (.items .inChain (s.handle k).toNat))

/-- An accepted DETACH: the requester's notices go, its own leases become FREE and its memberships end, its claims leave
the queue, the supervisor's finished scrub entries go, its counts are 0 and it is DETACHED; then one grant pass. -/
def Obligations.DetachPurges : Prop :=
  ∀ (s : State) (m : Mid), s.Served → (s.master m).state = .attached →
    (∀ k l, s.lease k = some l → (l.hold.owner? = some m → l.hold.chain = []) ∧ m ∉ l.hold.chain) →
    let ends := fun l : Lease =>
      l.hold.owner? = some m ∨ (l.hold.shares m = true ∧ ∀ e ∈ l.hold.sharers, e.master = m)
    ∃ t u : State, exec (.detach m) s = .next t ∧ State.PassOf u t ∧
      s.Answered t m 0x02
        (.items .ok (allSlots.countP fun k => (s.lease k).any fun l => l.hold.owner? = some m)
          (allSlots.countP fun k => (s.lease k).any fun l => l.hold.shares m)
          (s.queue.countP fun e => e.claim.master = m)) ∧
      u = { s with
            slots := u.slots, queue := u.queue, masters := u.masters, scrub := u.scrub, window := u.window } ∧
      (∀ k, (u.slot k).gen = (s.slot k).gen ∧ (s.lease k = none → u.lease k = none)) ∧
      (∀ k l, s.lease k = some l → ends l → u.lease k = none) ∧
      (∀ k l, s.lease k = some l → ¬ends l →
        u.lease k =
          some
            { l with
              hold :=
                if l.hold.shares m = true then .shared (l.hold.sharers.filter fun e => e.master ≠ m) else l.hold
              notices := l.notices.set m none }) ∧
      u.queue = s.queue.filter (fun e => e.claim.master ≠ m) ∧
      u.scrub =
        (if m = s.supmid then { s.scrub with list := s.scrub.list.filter fun e => e.state.live } else s.scrub) ∧
      u.master m = { s.master m with state := .detached, held := 0, waiting := 0, orphan := none } ∧
      ∀ n, n ≠ m →
        u.master n = { s.master n with orphan := (u.master n).orphan } ∧
          ∃ freed : SlotIx → Option NoticeSet,
            (∀ k ns, freed k = some ns ↔ ∃ l, s.lease k = some l ∧ ends l ∧ ns = l.notices) ∧ s.OrphansOf u freed n

/-! ### Claims -/

/-- Checks 3 to 8 of CLAIM in the order of Table 3-2, each with the answer of Table 3-3 and nothing changed. A
SELF_OVERLAP caused by a lease reports no tag (DEDUCED: assumption log 7). -/
def Obligations.ClaimCheckOrder : Prop :=
  ∀ (s : State) (m : Mid), s.Served → (s.master m).state = .attached →
    let a := (s.win m).claimArgs
    let tag := a.tag.toNat
    let p := s.pool a.range.pool
    let x := s.master m
    State.FirstOf
      [ (p.enabled = false, claimAnswer .badPool tag),
        (a.range.count = 0 ∨ 4096 < a.range.count ∨ p.size < a.range.first + a.range.count,
          claimAnswer .badRange tag),
        (a.term = 0, claimAnswer .badTerm tag),
        ((s.entryOf m a.tag).isSome = true,
          claimAnswer .dupTag tag (further := place (((s.entryOf m a.tag).map fun e => e.status.code).getD 0) 0 8)),
        ((s.overlapsOwn (s.clampedClaim m a)).isSome = true,
          claimAnswer .selfOverlap tag (further := place (slotCode (s.overlapsOwn (s.clampedClaim m a))) 0 8)),
        ((s.waitingOverlap m a.range).isSome = true,
          claimAnswer .selfOverlap tag
            (further :=
              place 32 0 8 ||| place (((s.waitingOverlap m a.range).map fun e => e.claim.tag.toNat).getD 0) 8 8)),
        (x.quota ≤ x.held + x.waiting,
          claimAnswer .quota tag
            (further := place x.held 0 8 ||| place x.waiting 8 8 ||| place x.quota 16 8)) ]
      (s.AnsweredOnly (.claim m) m 0x10)
      (s.ClaimPasses m)

/-- A claim that passes its checks and is blocked by no lease and by no waiting claim is granted: it joins the SHARED
lease of exactly its range, or takes the lowest-numbered FREE slot under the next generation. -/
def Obligations.ClaimGrants : Prop :=
  ∀ (s : State) (m : Mid) (k : SlotIx), s.Served → s.ClaimPasses m →
    let a := (s.win m).claimArgs
    let n := s.clampTerm a.range.pool a.term
    let term : Term := { granted := n, remaining := n, warned := false }
    let entry : Sharer := { master := m, tag := a.tag, term := term }
    let joined := { s.master m with held := (s.master m).held + 1 }
    (∀ j l, s.lease j = some l → l.range.overlaps a.range = true → a.mode = .shared ∧ l.hold.mode = .shared) →
    (∀ e ∈ s.queue, e.isWaiting = true → e.claim.range.overlaps a.range = true →
      a.mode = .shared ∧ e.claim.mode = .shared) →
    (∀ l es, a.mode = .shared → s.lease k = some l → l.hold = .shared es → l.range = a.range →
      (∀ j l', j < k → s.lease j = some l' → l'.hold.mode = .shared → l'.range ≠ a.range) →
      ∃ t, exec (.claim m) s = .next t ∧
        t = { s with slots := t.slots, masters := t.masters, window := t.window, bus := t.bus } ∧
        s.LeaseBecomes t k (some { l with hold := .shared (es ++ [entry]) }) ∧ s.MasterBecomes t m joined ∧
        s.Answered t m 0x10
          (claimAnswer .ok a.tag.toNat (handle := (s.handle k).toNat) (joined := 1) (term := n))) ∧
    (s.lease k = none → (∀ j, j < k → s.lease j ≠ none) →
      (a.mode = .shared → ∀ j l, s.lease j = some l → l.hold.mode = .shared → l.range ≠ a.range) →
      ∃ t, exec (.claim m) s = .next t ∧
        t = { s with slots := t.slots, masters := t.masters, window := t.window, bus := t.bus } ∧
        t.slot k =
          { gen := (s.slot k).gen + 1
            lease :=
              some
                { range := a.range
                  hold := if a.mode = .exclusive then .held m a.tag term [] else .shared [entry]
                  notices := NoticeSet.empty } } ∧
        (∀ j, j ≠ k → t.slot j = s.slot j) ∧ s.MasterBecomes t m joined ∧
        s.Answered t m 0x10
          (claimAnswer .ok a.tag.toNat (handle := (handleOf ((s.slot k).gen + 1) k).toNat) (term := n)))

/-- A claim that passes its checks and is blocked by a lease, by a WAITING claim or by the want of a slot: with a wait limit
it is refused with LIMIT or QUEUE_FULL or joins the young end of the queue; without one it is refused with CONFLICT, or with
NO_SLOT when it is only short of a slot. The lowest-numbered blocking slot and the number of blocking WAITING entries are
reported with QUEUED and CONFLICT, that number as it is even where it is 16 (DEDUCED: assumption log 17); with NO_SLOT they
are 32 and 0 (MODEL'S CHOICE between the text of R52 and its table: assumption log 15); LIMIT and QUEUE_FULL leave both
fields zero (DEDUCED from Table 3-3 against R51: assumption log 16). -/
def Obligations.ClaimWaitsOrIsRefused : Prop :=
  ∀ (s : State) (m : Mid) (slot : Nat), s.Served → s.ClaimPasses m →
    let a := (s.win m).claimArgs
    let tag := a.tag.toNat
    let mine := s.queue.countP fun e => e.claim.master = m
    let count := s.queue.countP (State.EntryBlocks a.mode a.range)
    let full := place mine 0 8 ||| place s.queue.length 8 8
    s.BlockingSlot a.mode a.range slot →
    s.BlockedByLease a.mode a.range ∨ count ≠ 0 ∨ s.ShortOfSlot a.mode a.range →
    (0 < a.wait →
      State.FirstOf
        [ (4 ≤ mine, claimAnswer .limit tag (further := full)),
          (16 ≤ s.queue.length, claimAnswer .queueFull tag (further := full)) ]
        (s.AnsweredOnly (.claim m) m 0x10)
        (∃ t, exec (.claim m) s = .next t ∧
          t = { s with queue := t.queue, masters := t.masters, window := t.window, bus := t.bus } ∧
          t.queue =
            s.queue ++
              [{ claim :=
                  { master := m, tag := a.tag, range := a.range, mode := a.mode
                    term := s.clampTerm a.range.pool a.term }
                 status := .waiting a.wait }] ∧
          s.MasterBecomes t m { s.master m with waiting := (s.master m).waiting + 1 } ∧
          s.Answered t m 0x10
            (claimAnswer .queued tag (term := s.clampTerm a.range.pool a.term) (position := s.queue.length)
              (slot := slot) (count := count)))) ∧
    (a.wait = 0 →
      State.FirstOf
        [(s.BlockedByLease a.mode a.range ∨ count ≠ 0, claimAnswer .conflict tag (slot := slot) (count := count))]
        (s.AnsweredOnly (.claim m) m 0x10)
        (s.AnsweredOnly (.claim m) m 0x10 (claimAnswer .noSlot tag (slot := 32))))

/-- CANCEL: its checks in order, then the withdrawal of the requester's WAITING entry of that tag, whose wait remaining
the answer reports, and a grant pass. No notice is raised. -/
def Obligations.CancelWithdraws : Prop :=
  ∀ (s : State) (m : Mid), s.Served →
    let tag := (s.win m).argTag
    let named := fun e : ClaimEntry => e.isWaiting = true ∧ e.claim.master = m ∧ e.claim.tag = tag
    State.FirstOf
      [ ((s.master m).state = .fenced, .bare .fenced), ((s.master m).state = .detached, .bare .notAttached),
        (∀ e ∈ s.queue, ¬named e, .bare .noClaim) ]
      (s.AnsweredOnly (.cancel m) m 0x11)
      (∀ older e younger, s.queue = older ++ e :: younger → named e → (∀ x ∈ older, ¬named x) →
        ∃ t u : State, exec (.cancel m) s = .next t ∧ State.PassOf u t ∧
          u = { s with queue := u.queue, masters := u.masters, window := u.window } ∧
          u.queue = older ++ younger ∧
          s.MasterBecomes u m { s.master m with waiting := (s.master m).waiting - 1 } ∧
          s.Answered t m 0x11 (.items .ok tag.toNat e.left))

/-! ### Terms -/

/-- RENEW after its handle check: the refusals of R80, and the restart of an exclusive term, in HELD or late from GRACE,
or of the requester's own sharer entry, for the term asked or the granted one, clamped to the pool's maximum. -/
def Obligations.RenewRestartsTerm : Prop :=
  ∀ (s : State) (m : Mid) (k : SlotIx) (l : Lease), s.Served → (s.master m).state = .attached → s.Names m k l →
    let h := (s.win m).argHandle.toNat
    let asked := (s.win m).argTerm
    let new := fun n : Term => s.clampTerm l.range.pool (if asked = 0 then n.granted else asked)
    let start := fun n : Term => ({ granted := new n, remaining := new n, warned := false } : Term)
    (l.hold.closed = true → s.AnsweredOnly (.renew m) m 0x12 (.bare .wrongState)) ∧
    (∀ o, l.hold.owner? = some o → o ≠ m → s.AnsweredOnly (.renew m) m 0x12 (.bare .notOwner)) ∧
    (∀ es, l.hold = .shared es → (∀ e ∈ es, e.master ≠ m) → s.AnsweredOnly (.renew m) m 0x12 (.bare .notOwner)) ∧
    (∀ tag n c, l.hold = .held m tag n c →
      s.Rewrites (.renew m) m 0x12 (.items .ok h (new n)) k { l with hold := .held m tag (start n) c }) ∧
    (∀ tag n c left, l.hold = .grace m tag n c left →
      s.Rewrites (.renew m) m 0x12 (.items .late h (new n)) k { l with hold := .held m tag (start n) c }) ∧
    (∀ older e younger, l.hold = .shared (older ++ e :: younger) → e.master = m →
      (∀ x ∈ older ++ younger, x.master ≠ m) →
      s.Rewrites (.renew m) m 0x12 (.items .ok h (new e.term)) k
        { l with hold := .shared (older ++ { e with term := start e.term } :: younger) })

/-- REVOKE by the supervisor after its handle check: WRONG_STATE in TAINTED, SCRUBBING in SCRUB; an EXCLUSIVE lease is
tainted, its owner and delegates hearing REVOKED; a SHARED one is freed, REVOKED reaching the orphan fields of its
sharers, and a grant pass runs. -/
def Obligations.RevokeEndsLease : Prop :=
  ∀ (s : State) (k : SlotIx) (l : Lease), s.Served → (s.master s.supmid).state = .attached →
    s.Names s.supmid k l →
    let m := s.supmid
    let h := (s.win m).argHandle.toNat
    (l.hold.state = .tainted → s.AnsweredOnly (.revoke m) m 0x50 (.bare .wrongState)) ∧
    (l.hold.state = .scrub → s.AnsweredOnly (.revoke m) m 0x50 (.bare .scrubbing)) ∧
    (∀ o, l.hold.owner? = some o →
      ∃ t tag, exec (.revoke m) s = .next t ∧
        t = { s with slots := t.slots, masters := t.masters, window := t.window, bus := t.bus } ∧
        l.hold.tagOf o = some tag ∧
        s.LeaseBecomes t k
          (some
            { l with hold := .tainted o tag, notices := s.raised l.notices .revoked (o :: l.hold.chain) }) ∧
        s.MasterBecomes t o { s.master o with held := (s.master o).held - 1 } ∧
        s.Answered t m 0x50 (.items .ok h Mode.exclusive.code SlotState.tainted.code)) ∧
    (∀ es, l.hold = .shared es →
      ∃ t u : State, exec (.revoke m) s = .next t ∧ State.PassOf u t ∧
        u = { s with slots := u.slots, masters := u.masters, window := u.window } ∧ s.LeaseBecomes u k none ∧
        (∀ n : Mid,
          u.master n =
            { s.master n with
              held := (s.master n).held - (es.map Sharer.master).count n
              orphan :=
                State.orphanAfter (s.master n) (s.handle k)
                  (s.raised l.notices .revoked (es.map Sharer.master))[n] }) ∧
        s.Answered t m 0x50 (.items .ok h Mode.shared.code SlotState.free.code))

/-! ### Release, mode changes and lending -/

/-- The checks of RELEASE in their order, each refusal changing nothing, and acceptance when none fails. -/
def Obligations.ReleaseChecks : Prop :=
  ∀ (s : State) (m : Mid), s.Served →
    let h := (s.win m).argHandle
    s.LendingEntry .release m fun _ l =>
      let wrong := fun r => Answer.items r h.toNat l.hold.mode.code l.hold.state.code
      State.FirstOf
        [ (l.hold.state = .tainted ∨ l.hold.state = .scrub, wrong .wrongState),
          (l.hold.mode = .exclusive ∧ l.hold.owner? ≠ some m, wrong .notOwner),
          (l.hold.mode = .shared ∧ l.hold.shares m = false, wrong .notOwner),
          (l.hold.chain ≠ [], .items .lent h.toNat l.hold.chain.length l.hold.userItem) ]
        (s.AnsweredOnly (.release m) m 0x13) (s.CompletesOk (.release m) m)

/-- The checks of DOWNGRADE and of UPGRADE in their order, each refusal changing nothing, and acceptance when none
fails. -/
def Obligations.ModeChangeChecks : Prop :=
  ∀ (s : State) (m : Mid), s.Served →
    let h := (s.win m).argHandle
    (s.LendingEntry .downgrade m fun _ l =>
      let wrong := fun r => Answer.items r h.toNat l.hold.mode.code l.hold.state.code
      State.FirstOf
        [ (l.hold.mode = .shared, wrong .wrongMode), (l.hold.state ≠ .held, wrong .wrongState),
          (l.hold.owner? ≠ some m, wrong .notOwner),
          (l.hold.chain ≠ [], .items .lent h.toNat l.hold.chain.length l.hold.userItem) ]
        (s.AnsweredOnly (.downgrade m) m 0x14) (s.CompletesOk (.downgrade m) m)) ∧
    (s.LendingEntry .upgrade m fun k l =>
      let wrong := fun r => Answer.items r h.toNat l.hold.mode.code l.hold.state.code
      let other := fun j => j ≠ k ∧ ∃ l', s.lease j = some l' ∧ l'.range.overlaps l.range = true
      State.FirstOf
        [ (l.hold.mode = .exclusive, wrong .wrongMode), (l.hold.shares m = false, wrong .notOwner),
          (∃ e ∈ l.hold.sharers, e.master ≠ m, .items .sharedBusy h.toNat l.hold.sharers.length) ]
        (s.AnsweredOnly (.upgrade m) m 0x15)
        ((∀ j, other j → (∀ i, i < j → ¬other i) →
            s.AnsweredOnly (.upgrade m) m 0x15 (.items .conflict h.toNat j.val)) ∧
          ((∀ j, ¬other j) → s.CompletesOk (.upgrade m) m)))

/-- The checks of LEND, of RETURN and of RECALL in their order, each refusal changing nothing, and acceptance when none
fails. -/
def Obligations.LendingChecks : Prop :=
  ∀ (s : State) (m : Mid), s.Served →
    let h := (s.win m).argHandle
    let d := (s.win m).argDelegate
    let wrong := fun r (l : Lease) => Answer.items r h.toNat l.hold.mode.code l.hold.state.code
    let closed := fun l : Lease => l.hold.state = .tainted ∨ l.hold.state = .scrub
    (s.LendingEntry .lend m fun _ l =>
      State.FirstOf
        [ (l.hold.mode = .shared, wrong .wrongMode l), (l.hold.state ≠ .held, wrong .wrongState l),
          (l.hold.currentUser? ≠ some m, .items .notUser h.toNat l.hold.userItem),
          ((s.master d).state ≠ .attached, .items .badMaster h.toNat d.val),
          (l.hold.owner? = some d ∨ d ∈ l.hold.chain, .items .inChain h.toNat d.val),
          (3 ≤ l.hold.chain.length, .items .depth h.toNat l.hold.chain.length) ]
        (s.AnsweredOnly (.lend m) m 0x18) (s.CompletesOk (.lend m) m)) ∧
    (s.LendingEntry .giveBack m fun _ l =>
      State.FirstOf
        [ (l.hold.mode = .shared, wrong .wrongMode l), (closed l, wrong .wrongState l),
          (l.hold.chain = [], wrong .notLent l),
          (l.hold.chain.getLast? ≠ some m, .items .notUser h.toNat l.hold.userItem) ]
        (s.AnsweredOnly (.giveBack m) m 0x19) (s.CompletesOk (.giveBack m) m)) ∧
    (s.LendingEntry .recall m fun _ l =>
      State.FirstOf
        [ (l.hold.mode = .shared, wrong .wrongMode l), (closed l, wrong .wrongState l),
          (l.hold.owner? ≠ some m, wrong .notOwner l), (l.hold.chain = [], wrong .notLent l) ]
        (s.AnsweredOnly (.recall m) m 0x1A) (s.CompletesOk (.recall m) m))

/-- RELEASE of an unlent EXCLUSIVE lease by its owner in HELD or GRACE frees the slot; of a membership, it removes the
entry and frees the slot with the last one. The releaser's own notice is dropped, the others of a freed slot move to the
orphan fields, the releaser's held count falls by one, and a grant pass runs, which the answer does not see (DEDUCED:
assumption log 7). -/
def Obligations.ReleaseGivesUp : Prop :=
  ∀ (s : State) (m : Mid) (k : SlotIx) (l : Lease), s.Served → (s.master m).state = .attached → s.Names m k l →
    let h := (s.win m).argHandle.toNat
    let less := { s.master m with held := (s.master m).held - 1 }
    let frees := fun u : State =>
      s.LeaseBecomes u k none ∧ u.master m = less ∧
        ∀ n, n ≠ m →
          u.master n = { s.master n with orphan := State.orphanAfter (s.master n) (s.handle k) l.notices[n] }
    let gone := fun (a : Answer) (after : State → Prop) =>
      ∃ t u : State, exec (.release m) s = .next t ∧ State.PassOf u t ∧
        u = { s with slots := u.slots, masters := u.masters, window := u.window } ∧ after u ∧ s.Answered t m 0x13 a
    (l.hold.owner? = some m → l.hold.chain = [] →
      gone (.items .ok h Mode.exclusive.code SlotState.free.code 0) frees) ∧
    ∀ older e younger, l.hold = .shared (older ++ e :: younger) → e.master = m →
      (∀ x ∈ older ++ younger, x.master ≠ m) →
      (older ++ younger = [] → gone (.items .ok h Mode.shared.code SlotState.free.code 0) frees) ∧
      (older ++ younger ≠ [] →
        gone (.items .ok h Mode.shared.code SlotState.held.code (older ++ younger).length) fun u =>
          s.LeaseBecomes u k
              (some { l with hold := .shared (older ++ younger), notices := l.notices.set m none }) ∧
            s.MasterBecomes u m less)

/-- DOWNGRADE turns the owner of an unlent lease in HELD into the sole sharer with the same term, in the same slot, and a
grant pass runs; its answer counts the sharers after the pass. -/
def Obligations.DowngradeShares : Prop :=
  ∀ (s : State) (m : Mid) (k : SlotIx) (l : Lease) (tag : Tag) (n : Term), s.Served →
    (s.master m).state = .attached → s.Names m k l → l.hold = .held m tag n [] →
    ∃ t u es, exec (.downgrade m) s = .next t ∧ State.PassOf u t ∧
      u = { s with slots := u.slots, window := u.window } ∧
      s.LeaseBecomes u k (some { l with hold := .shared [{ master := m, tag := tag, term := n }] }) ∧
      (t.lease k).map (fun l' => l'.hold) = some (.shared es) ∧
      s.Answered t m 0x14 (.items .ok (s.win m).argHandle.toNat n.remaining es.length)

/-- UPGRADE turns the sole sharer of a lease that no other overlaps into its owner with the same tag and term, in the same
slot, whatever waits in the queue; no grant pass runs. -/
def Obligations.UpgradeOwns : Prop :=
  ∀ (s : State) (m : Mid) (k : SlotIx) (l : Lease) (e : Sharer), s.Served → (s.master m).state = .attached →
    s.Names m k l → l.hold = .shared [e] → e.master = m →
    (∀ j l', j ≠ k → s.lease j = some l' → l'.range.overlaps l.range = false) →
    s.Rewrites (.upgrade m) m 0x15
      (.items .ok (s.win m).argHandle.toNat e.term.remaining e.term.granted) k
      { l with hold := .held m e.tag e.term [] }

/-- LEND appends the delegate, which hears DELEGATED; RETURN removes the requester's frame, the youngest, and the new
current user hears RETURNED; RECALL empties the chain and every delegate of it hears RECALLED. -/
def Obligations.LendReturnRecall : Prop :=
  ∀ (s : State) (m : Mid) (k : SlotIx) (l : Lease) (o : Mid), s.Served → (s.master m).state = .attached →
    s.Names m k l → l.hold.owner? = some o →
    let h := (s.win m).argHandle.toNat
    let d := (s.win m).argDelegate
    (l.hold.state = .held → l.hold.chain.getLast?.getD o = m → (s.master d).state = .attached → d ≠ o →
      d ∉ l.hold.chain → l.hold.chain.length < 3 →
      s.Rewrites (.lend m) m 0x18 (.items .ok h (l.hold.chain.length + 1) d.val) k
        { l with
          hold := l.hold.withChain (l.hold.chain ++ [d])
          notices := l.notices.set d (some .delegated) }) ∧
    (∀ c, l.hold.chain = c ++ [m] →
      s.Rewrites (.giveBack m) m 0x19 (.items .ok h c.length (c.getLast?.getD o).val) k
        { l with
          hold := l.hold.withChain c
          notices := s.raised l.notices .returned [c.getLast?.getD o] }) ∧
    (o = m → l.hold.chain ≠ [] →
      s.Rewrites (.recall m) m 0x1A (.items .ok h l.hold.chain.length) k
        { l with
          hold := l.hold.withChain []
          notices := s.raised l.notices .recalled l.hold.chain })

/-! ### Notices and inspection -/

/-- NEXT NOTICE: FENCED, or NO_NOTICE without an item; else one item goes, the orphan first, then the oldest ENDED claim
entry, then the requester's entry in the lowest-numbered slot that holds one, then the supervisor's oldest finished scrub
entry, with the answer of Table 8-3, the mode bit of an item of no lease being zero (DEDUCED: assumption log 7); the
requester has one item fewer, and the answer says how many are left. Line ATNm is asserted exactly while master m has an
item in one of the four places of Table 8-2. -/
def Obligations.NextNoticeCollects : Prop :=
  ∀ (s : State) (m : Mid),
    let ended := fun e : ClaimEntry => e.claim.master = m ∧ e.status = .ended
    let done := fun e : ScrubEntry => m = s.supmid ∧ e.state.live = false
    (s.atn m = true ↔
      (s.master m).orphan ≠ none ∨ (∃ e ∈ s.queue, ended e) ∨ (∃ k, ∃ l ∈ s.lease k, l.notices[m] ≠ none) ∨
        ∃ e ∈ s.scrub.list, done e) ∧
    (s.Served →
    let noOrphan := (s.master m).orphan = none
    let noEnded := ∀ e ∈ s.queue, ¬ended e
    let noLease := ∀ k l, s.lease k = some l → l.notices[m] = none
    let noDone := ∀ e ∈ s.scrub.list, ¬done e
    let collects := fun (a : Word → Answer) (after : State → Prop) =>
      ∃ t, exec (.nextNotice m) s = .next t ∧ after t ∧ s.Answered t m 0x20 (a (place (t.pendingItems m) 16 6)) ∧
        t.pendingItems m + 1 = s.pendingItems m
    ((s.master m).state = .fenced → s.AnsweredOnly (.nextNotice m) m 0x20 (.bare .fenced)) ∧
    ((s.master m).state = .detached → s.AnsweredOnly (.nextNotice m) m 0x20 (.bare .noNotice)) ∧
    ((s.master m).state = .attached →
      (noOrphan → noEnded → noLease → noDone → s.AnsweredOnly (.nextNotice m) m 0x20 (.bare .noNotice)) ∧
      (∀ o, (s.master m).orphan = some o →
        collects
          (fun left =>
            { Answer.bare .ok with val0 := noticeHead o.handle.toNat o.kind.code 1 0 0, val1 := left })
          fun t =>
            t = { s with masters := t.masters, window := t.window, bus := t.bus } ∧
              s.MasterBecomes t m { s.master m with orphan := none }) ∧
      (∀ older e younger, noOrphan → s.queue = older ++ e :: younger → ended e → (∀ x ∈ older, ¬ended x) →
        collects
          (fun left =>
            { result := .ok
              val0 := noticeHead 0 9 2 0 0
              val1 := place e.claim.tag.toNat 0 8 ||| place 1 8 1 ||| left
              val2 :=
                place e.claim.range.first 0 16 ||| place e.claim.range.count 16 13
                  ||| place e.claim.range.pool.val 29 2
              val3 := 0 })
          fun t => t = { s with queue := older ++ younger, window := t.window, bus := t.bus }) ∧
      (∀ k l x, noOrphan → noEnded → s.lease k = some l → l.notices[m] = some x →
        (∀ j l', j < k → s.lease j = some l' → l'.notices[m] = none) →
        collects
          (fun left =>
            { Answer.bare .ok with
              val0 := noticeHead (s.handle k).toNat x.code 3 l.hold.state.code l.hold.mode.code
              val1 :=
                match l.hold.tagOf m with
                | none => left
                | some tag => place tag.toNat 0 8 ||| place 1 8 1 ||| left })
          fun t =>
            t = { s with slots := t.slots, window := t.window, bus := t.bus } ∧
              s.LeaseBecomes t k (some { l with notices := l.notices.set m none })) ∧
      (∀ older e younger, noOrphan → noEnded → noLease → s.scrub.list = older ++ e :: younger → done e →
        (∀ x ∈ older, ¬done x) →
        collects
          (fun left =>
            { Answer.bare .ok with
              val0 :=
                noticeHead e.handle.toNat (match e.state with | .failed _ => 11 | _ => 10) 4
                  (match s.lookup e.handle with | some (_, l) => l.hold.state.code | none => 0) 0
              val1 := left
              val3 := match e.state with | .failed a => word a | _ => 0 })
          fun t =>
            t = { s with
                  scrub := { s.scrub with list := older ++ younger }, window := t.window, bus := t.bus })))

/-- INSPECT: its checks in order, then the record of the slot in the fields of Table 10-6, summary or sub-record, VAL0 being
the same for both (DEDUCED: assumption log 7), with nothing changed and nothing consumed. -/
def Obligations.InspectReports : Prop :=
  ∀ (s : State) (m : Mid), s.Served →
    let i := (s.win m).argSelector
    State.FirstOf
      [ ((s.master m).state = .fenced, .bare .fenced), (31 < (s.win m).argSlot, .bare .badRange),
        (8 < i, .bare .badRange) ]
      (s.AnsweredOnly (.inspect m) m 0x21)
      (∀ k : SlotIx, k.val = (s.win m).argSlot →
        ∃ a : Answer, a.result = .ok ∧ s.AnsweredOnly (.inspect m) m 0x21 a ∧
          field a.val0 0 16 = (s.handle k).toNat ∧ field a.val0 16 3 = (s.slot k).state.code ∧
          field a.val0 19 1 = (s.slot k).mode.code ∧ field a.val0 25 6 = slotCode (s.nextLive k) ∧
          (s.lease k = none → field a.val0 20 4 = 0 ∧ field a.val0 24 1 = 0 ∧ a.val1 = 0 ∧ a.val2 = 0 ∧ a.val3 = 0) ∧
          ∀ l, s.lease k = some l →
            (∀ o tag n c, l.hold = .held o tag n c →
              field a.val0 20 4 = c.length % 16 ∧ field a.val0 24 1 = flag n.warned) ∧
            (∀ o tag n c left, l.hold = .grace o tag n c left →
              field a.val0 20 4 = c.length % 16 ∧ field a.val0 24 1 = flag n.warned) ∧
            (l.hold.closed = true → field a.val0 20 4 = 0 ∧ field a.val0 24 1 = 0) ∧
            (∀ es, l.hold = .shared es → field a.val0 20 4 = es.length % 16 ∧ field a.val0 24 1 = 0) ∧
            (i = 0 →
              field a.val1 0 16 = l.range.first % 2 ^ 16 ∧ field a.val1 16 13 = l.range.count % 2 ^ 13 ∧
              field a.val1 29 2 = l.range.pool.val ∧
              (∀ n : Mid, field a.val3 (16 + n.val) 1 = flag l.notices[n].isSome) ∧
              (∀ o tag n c, l.hold = .held o tag n c →
                field a.val2 0 16 = n.granted % 2 ^ 16 ∧ field a.val2 16 16 = n.remaining % 2 ^ 16 ∧
                field a.val3 0 3 = o.val ∧ field a.val3 4 3 = (c.getLast?.getD o).val ∧
                field a.val3 8 8 = tag.toNat ∧ field a.val3 24 8 = 0) ∧
              (∀ o tag n c left, l.hold = .grace o tag n c left →
                field a.val2 0 16 = n.granted % 2 ^ 16 ∧ field a.val2 16 16 = n.remaining % 2 ^ 16 ∧
                field a.val3 0 3 = o.val ∧ field a.val3 4 3 = (c.getLast?.getD o).val ∧
                field a.val3 8 8 = tag.toNat ∧ field a.val3 24 8 = left % 2 ^ 8) ∧
              (∀ o tag, l.hold = .tainted o tag ∨ l.hold = .scrub o tag →
                a.val2 = 0 ∧ field a.val3 0 3 = o.val ∧
                field a.val3 4 3 = 0 ∧ field a.val3 8 8 = tag.toNat ∧ field a.val3 24 8 = 0) ∧
              (∀ es, l.hold = .shared es →
                a.val2 = 0 ∧ field a.val3 0 3 = 0 ∧
                field a.val3 4 3 = 0 ∧ field a.val3 8 8 = 0 ∧ field a.val3 24 8 = 0)) ∧
            (1 ≤ i →
              a.val3 = 0 ∧
              (∀ es e, l.hold = .shared es → es[i - 1]? = some e →
                field a.val1 0 3 = e.master.val ∧ field a.val1 8 8 = e.tag.toNat ∧
                field a.val1 30 1 = flag e.term.warned ∧ field a.val1 31 1 = 1 ∧
                field a.val2 0 16 = e.term.granted % 2 ^ 16 ∧ field a.val2 16 16 = e.term.remaining % 2 ^ 16) ∧
              (∀ d, l.hold.chain[i - 1]? = some d →
                field a.val1 0 3 = d.val ∧ field a.val1 8 8 = 0 ∧ field a.val1 30 1 = 0 ∧ field a.val1 31 1 = 1 ∧
                  a.val2 = 0) ∧
              (l.hold.sharers[i - 1]? = none → l.hold.chain[i - 1]? = none → a.val1 = 0 ∧ a.val2 = 0)))

/-- The next live slot of slot `k`: the first that is not FREE among the slots after it, in rising order and then from 0,
`k` itself left out; 32 when there is none. -/
def Obligations.InspectNextLive : Prop :=
  ∀ (s : State) (k j : SlotIx),
    ((∀ i, i ≠ k → s.lease i = none) → slotCode (s.nextLive k) = 32) ∧
      (j ≠ k → s.lease j ≠ none → (∀ i, i ≠ k → s.lease i ≠ none → (j - k).val ≤ (i - k).val) →
        slotCode (s.nextLive k) = j.val)

/-! ### Pools and settings -/

/-- SET POOL by the supervisor: POOL_BUSY, then the field checks and the overlap checks in order, each with the number it
reports; an accepted request replaces the whole record and reports the last byte of the extent. -/
def Obligations.SetPoolReplaces : Prop :=
  ∀ s : State, s.Served → (s.master s.supmid).state = .attached →
    let m := s.supmid
    let a := (s.win m).poolArgs
    let leases := allSlots.countP fun k => (s.lease k).any fun l => l.range.pool = a.pool
    let entries := s.queue.countP fun e => e.claim.range.pool = a.pool
    let top := a.base.toNat + a.size * a.granule.bytes
    let meets := fun q : PoolIx =>
      q ≠ a.pool ∧ (s.pool q).enabled = true ∧
        spansMeet a.base.toNat top (s.pool q).base.toNat (s.pool q).top = true
    State.FirstOf
      [ (leases ≠ 0 ∨ entries ≠ 0,
          .items .poolBusy leases entries (slotCode (s.findLease fun l => l.range.pool = a.pool))),
        (a.size = 0 ∨ 65536 < a.size, .items .badConfig 1),
        (a.base.toNat % a.granule.bytes ≠ 0, .items .badConfig 2), (2 ^ 32 < top, .items .badConfig 3),
        (a.policy = 3, .items .badConfig 4), (a.maxTerm = 0, .items .badConfig 5),
        (a.enabled = true ∧ a.base.toNat < s.windowBase + 256 ∧ s.windowBase < top, .items .badConfig 6) ]
      (s.AnsweredOnly (.setPool m) m 0x40)
      ((∀ q, a.enabled = true → meets q → (∀ p, p < q → ¬meets p) →
          s.AnsweredOnly (.setPool m) m 0x40 (.items .badConfig 7 q.val)) ∧
        ((a.enabled = true → ∀ q, ¬meets q) →
          ∃ t policy, exec (.setPool m) s = .next t ∧
            t = { s with pools := t.pools, window := t.window, bus := t.bus } ∧ Policy.ofCode a.policy = some policy ∧
            t.pool a.pool =
              { enabled := a.enabled, base := a.base, size := a.size, granule := a.granule, policy := policy
                maxTerm := a.maxTerm } ∧
            (∀ q, q ≠ a.pool → t.pool q = s.pool q) ∧ s.Answered t m 0x40 (.items .ok (top - 1))))

/-- SET TIMING and SET FILL by the supervisor: a divider value of 0, and a run length of 0 or above 64, are refused with
BAD_CONFIG; else the settings are replaced and reported. A changed warn level sets every running warned flag; nothing else
of a lease, of the tick period in progress or of the scrub list changes. -/
def Obligations.SettingsReplaced : Prop :=
  ∀ s : State, s.Served → (s.master s.supmid).state = .attached →
    let m := s.supmid
    let d := (s.win m).argDivider
    let w := (s.win m).argWarnLevel
    let g := (s.win m).argGraceLength
    let n := (s.win m).argRunLength
    let warn := fun x : Term => { x with warned := true }
    (d = 0 → s.AnsweredOnly (.setTiming m) m 0x41 (.bare .badConfig)) ∧
    (d ≠ 0 →
      ∃ t, exec (.setTiming m) s = .next t ∧
        t = { s with
              slots := t.slots
              time := { s.time with divider := d, warnLevel := w, graceLength := g }
              window := t.window
              bus := t.bus } ∧
        (w = s.time.warnLevel → t.slots = s.slots) ∧
        (w ≠ s.time.warnLevel →
          ∀ k,
            (t.slot k).gen = (s.slot k).gen ∧
            (s.lease k = none → t.lease k = none) ∧
            ∀ l, s.lease k = some l →
              (∀ o tag x c, l.hold = .held o tag x c →
                t.lease k = some { l with hold := .held o tag (warn x) c }) ∧
              (∀ es, l.hold = .shared es →
                t.lease k = some { l with hold := .shared (es.map fun e => { e with term := warn e.term }) }) ∧
              (l.hold.state ≠ .held → t.lease k = some l)) ∧
        s.Answered t m 0x41 (.items .ok d w g)) ∧
    (n = 0 ∨ 64 < n → s.AnsweredOnly (.setFill m) m 0x43 (.bare .badConfig)) ∧
    (1 ≤ n → n ≤ 64 →
      ∃ t, exec (.setFill m) s = .next t ∧
        t = { s with
              scrub := { s.scrub with fill := (s.win m).argFill, runLength := n }
              window := t.window
              bus := t.bus } ∧
        s.Answered t m 0x43 (.items .ok (s.win m).argFill.toNat n))

/-! ### Quotas, fences and soft reset -/

/-- SET MASTER by the supervisor: BAD_CONFIG, then QUOTA with the two counts; else the quota and threshold are replaced,
and the master is fenced at once when its count already meets the new threshold. -/
def Obligations.SetMasterReplaces : Prop :=
  ∀ s : State, s.Served → (s.master s.supmid).state = .attached →
    let m := s.supmid
    let v := (s.win m).argMaster
    let quota := (s.win m).argQuota
    let threshold := (s.win m).argThreshold
    let x := s.master v
    let fences :=
      0 < threshold ∧ v ≠ s.supmid ∧ x.state ≠ .fenced ∧ threshold ≤ x.violations
    State.FirstOf
      [ (quota = 0 ∨ 32 < quota, .bare .badConfig), (quota < x.held + x.waiting, .items .quota x.held x.waiting) ]
      (s.AnsweredOnly (.setMaster m) m 0x42)
      (∃ t u : State, exec (.setMaster m) s = .next t ∧ u = { s with masters := u.masters, window := u.window } ∧
        s.MasterBecomes u v { x with quota := quota, threshold := threshold } ∧
        (¬fences →
          t = { u with window := t.window, bus := t.bus } ∧ s.Answered t m 0x42 (.items .ok quota threshold 0)) ∧
        (fences →
          t = { u.fenceMaster v with window := t.window, bus := t.bus } ∧
            s.Answered t m 0x42 (.items .ok quota threshold 1)))

/-- FENCE by the supervisor: NOT_ALLOWED for the supervisor, WRONG_STATE for a FENCED master; else the master is fenced,
and the answer counts the leases tainted, the memberships ended, the frames cut and the claim entries removed. -/
def Obligations.FenceCounts : Prop :=
  ∀ s : State, s.Served → (s.master s.supmid).state = .attached →
    let m := s.supmid
    let v := (s.win m).argMaster
    let cut := fun k =>
      match s.lease k with
      | none => 0
      | some l => if l.hold.owner? = some v then 0 else (l.hold.chain.dropWhile fun d => d ≠ v).length
    State.FirstOf
      [ (v = m, .bare .notAllowed), ((s.master v).state = .fenced, .bare .wrongState) ]
      (s.AnsweredOnly (.fence m) m 0x48)
      (∃ t u : State, exec (.fence m) s = .next t ∧ u = { s with window := u.window } ∧
        t = { u.fenceMaster v with window := t.window, bus := t.bus } ∧
        s.Answered t m 0x48
          (.items .ok (allSlots.countP fun k => (s.lease k).any fun l => l.hold.owner? = some v)
            (allSlots.countP fun k => (s.lease k).any fun l => l.hold.shares v) (allSlots.map cut).sum
            (s.queue.countP fun e => e.claim.master = v)))

/-- What a fence of `v` does before its grant pass: its own leases are tainted, their delegates hearing REVOKED and the
supervisor TAINTED; its memberships end, and a list left empty frees its slot; the chains it stands in are cut at it, the
new current user hearing RETURNED and the younger delegates RECALLED; its notices, its orphan and its claims go; and it is
FENCED with counts of 0. -/
def Obligations.FenceEffect : Prop :=
  ∀ (s : State) (v : Mid), v ≠ s.supmid →
    let hears := fun n : Mid => n ≠ v ∧ s.attached n = true
    let ends := fun l : Lease => l.hold.shares v = true ∧ ∀ e ∈ l.hold.sharers, e.master = v
    let older := fun l : Lease => l.hold.chain.takeWhile fun d => d ≠ v
    let younger := fun l : Lease => (l.hold.chain.dropWhile fun d => d ≠ v).drop 1
    ∃ u : State, s.fenceMaster v = u.grantPass ∧
      u = { s with slots := u.slots, queue := u.queue, masters := u.masters } ∧
      (∀ k, (u.slot k).gen = (s.slot k).gen ∧ (s.lease k = none → u.lease k = none)) ∧
      (∀ k l, s.lease k = some l →
        (l.hold.owner? = some v →
          ∃ l', u.lease k = some l' ∧ l'.range = l.range ∧ l'.hold = l.hold.taint ∧
            ∀ n : Mid,
              l'.notices[n] =
                if n = v then none
                else if n = s.supmid ∧ hears n then some .tainted
                else if n ∈ l.hold.chain ∧ hears n then some .revoked
                else l.notices[n]) ∧
        (ends l → u.lease k = none) ∧
        (l.hold.shares v = true → ¬ends l →
          u.lease k =
            some
              { l with
                hold := .shared (l.hold.sharers.filter fun e => e.master ≠ v)
                notices := l.notices.set v none }) ∧
        (∀ o, l.hold.owner? = some o → o ≠ v → v ∈ l.hold.chain →
          ∃ l', u.lease k = some l' ∧ l'.range = l.range ∧ l'.hold = l.hold.withChain (older l) ∧
            ∀ n : Mid,
              l'.notices[n] =
                if n = v then none
                else if n ∈ younger l ∧ hears n then some .recalled
                else if n = (older l).getLast?.getD o ∧ hears n then some .returned
                else l.notices[n]) ∧
        (l.hold.owner? ≠ some v → l.hold.shares v = false → v ∉ l.hold.chain →
          u.lease k = some { l with notices := l.notices.set v none })) ∧
      u.queue = s.queue.filter (fun e => e.claim.master ≠ v) ∧
      u.master v = { s.master v with state := .fenced, held := 0, waiting := 0, orphan := none } ∧
      ∀ n, n ≠ v →
        u.master n = { s.master n with orphan := (u.master n).orphan } ∧
          ∃ freed : SlotIx → Option NoticeSet,
            (∀ k ns, freed k = some ns ↔ ∃ l, s.lease k = some l ∧ ends l ∧ ns = l.notices) ∧ s.OrphansOf u freed n

/-- UNFENCE by the supervisor: WRONG_STATE for a master that is not FENCED; else the master is DETACHED, its count 0 and
its note cleared, with nothing else restored; the first refusal after it starts a new count and fills the note. -/
def Obligations.UnfenceLifts : Prop :=
  ∀ s : State, s.Served → (s.master s.supmid).state = .attached →
    let m := s.supmid
    let v := (s.win m).argMaster
    ((s.master v).state ≠ .fenced → s.AnsweredOnly (.unfence m) m 0x49 (.bare .wrongState)) ∧
    ((s.master v).state = .fenced →
      ∃ t, exec (.unfence m) s = .next t ∧
        t = { s with masters := t.masters, window := t.window, bus := t.bus } ∧
        s.MasterBecomes t v { s.master v with state := .detached, violations := 0, note := none } ∧
        s.Answered t m 0x49 (.bare .ok) ∧
        ∀ n : Note,
          ((t.countRefusal v n).master v).violations = 1 ∧ ((t.countRefusal v n).master v).note = some n)

/-- CLEAR NOTE by the supervisor, for a master in any state: the count becomes 0 and the note goes, the answer reporting
both as they stood, and the master's state stays. -/
def Obligations.ClearNoteReportsAndClears : Prop :=
  ∀ s : State, s.Served → (s.master s.supmid).state = .attached →
    let m := s.supmid
    let v := (s.win m).argMaster
    ∃ t a, exec (.clearNote m) s = .next t ∧
      t = { s with masters := t.masters, window := t.window, bus := t.bus } ∧
      s.MasterBecomes t v { s.master v with violations := 0, note := none } ∧ s.Answered t m 0x4A a ∧
      a.result = .ok ∧ a.val0 = word (s.master v).violations ∧
      ((s.master v).note = none → a.val1 = 0 ∧ a.val2 = 0) ∧
      (∀ n, (s.master v).note = some n →
        field a.val1 0 3 = n.reason.code ∧ field a.val1 4 1 = dirCode n.dir ∧ field a.val1 8 6 = slotCode n.slot ∧
          field a.val1 31 1 = 1 ∧ a.val2 = n.address) ∧
      a.val3 = 0 ∧
      ∀ n : Note,
        ((t.countRefusal v n).master v).violations = 1 ∧ ((t.countRefusal v n).master v).note = some n

/-- SOFT RESET by the supervisor: leases as Table 2-7 states, the queue and the scrub list empty, every master DETACHED
with nothing but its quota and threshold, results and value words zero but for the requester's own answer, the settings,
the argument words, the counts and the pools kept, and the cause SOFT. -/
def Obligations.SoftResetResets : Prop :=
  ∀ s : State, s.Served → (s.master s.supmid).state = .attached →
    let m := s.supmid
    ∃ t, exec (.softReset m) s = .next t ∧
      t = { s with
            slots := t.slots
            queue := []
            masters := t.masters
            scrub := { s.scrub with list := [], breq := false, run := none, flight := none }
            window := t.window
            cause := .soft
            bus := .ready 0 } ∧
      (∀ k,
        (t.slot k).gen = (s.slot k).gen ∧
        (s.lease k = none → t.lease k = none) ∧
        ∀ l, s.lease k = some l →
          (l.hold.mode = .shared → t.lease k = none) ∧
          (∀ o tag, l.hold.mode = .exclusive → l.hold.ownerItems = (o.val, tag.toNat) →
            t.lease k = some { range := l.range, hold := .tainted o tag, notices := NoticeSet.empty })) ∧
      (∀ n,
        t.master n =
          { s.master n with
            state := .detached, held := 0, waiting := 0, violations := 0, note := none, orphan := none }) ∧
      (∀ n, t.atn n = false) ∧
      t.win m =
        { s.win m with
          lastCode := 0x5F
          seq := (s.win m).seq + 1
          result := 0
          answered := 0x5F
          val0 := 0
          val1 := 0
          val2 := 0
          val3 := 0 } ∧
      ∀ n, n ≠ m →
        t.win n =
          { s.win n with result := 0, answered := 0, val0 := 0, val1 := 0, val2 := 0, val3 := 0 }

/-! ### Recovery -/

/-- SCRUB by the supervisor after its handle check: SCRUBBING, WRONG_STATE and LIST_FULL; else the lease enters SCRUB and
an entry at the first word of its range joins the young end, ACTIVE at once when none is, with BREQ asserted unless BGNT
still stands. -/
def Obligations.ScrubEntersList : Prop :=
  ∀ (s : State) (k : SlotIx) (l : Lease), s.Served → s.ScrubLaw → (s.master s.supmid).state = .attached →
    s.Names s.supmid k l →
    let m := s.supmid
    let h := (s.win m).argHandle
    let p := s.pool l.range.pool
    let n := s.scrub.list.length
    let joined := fun st => s.scrub.list ++ [{ handle := h, state := st }]
    let first := p.base.toNat + l.range.first * p.granule.bytes
    let words := l.range.count * p.granule.bytes / 4
    State.FirstOf
      [ (l.hold.state = .scrub, .bare .scrubbing), (l.hold.state = .held ∨ l.hold.state = .grace, .bare .wrongState),
        (8 ≤ n, .bare .listFull) ]
      (s.AnsweredOnly (.scrub m) m 0x51)
      (∀ o tag, l.hold = .tainted o tag →
        ∃ t, exec (.scrub m) s = .next t ∧
          t = { s with slots := t.slots, scrub := t.scrub, window := t.window, bus := t.bus } ∧
          s.LeaseBecomes t k (some { l with hold := .scrub o tag }) ∧
          ((∀ e ∈ s.scrub.list, e.state.live = false) →
            t.scrub = { s.scrub with list := joined (.active first), breq := !s.scrub.bgnt } ∧
              s.Answered t m 0x51 (.items .ok h.toNat n 1 words)) ∧
          (∀ e ∈ s.scrub.list, e.state.live = true →
            t.scrub = { s.scrub with list := joined (.queued first) } ∧
              s.Answered t m 0x51 (.items .ok h.toNat n 0 words)))

/-- CLEAR by the supervisor after its handle check: WRONG_STATE in HELD or GRACE; else the slot becomes FREE, its notices
moving to the orphan fields and no count changing, and a grant pass runs. The live entry of a lease in SCRUB leaves the
list, an ACTIVE one with BREQ deasserted, its progress reported and activation last. -/
def Obligations.ClearFrees : Prop :=
  ∀ (s : State) (k : SlotIx) (l : Lease), s.Served → s.ScrubLaw → (s.master s.supmid).state = .attached →
    s.Names s.supmid k l →
    let m := s.supmid
    let h := (s.win m).argHandle
    let clears := fun (progress : Nat) (after : ScrubEngine → Prop) =>
      ∃ t u : State, exec (.clear m) s = .next t ∧ t = { u.grantPass with
            scrub := t.scrub, window := t.window, bus := t.bus } ∧
        u = { s with slots := u.slots, masters := u.masters, window := u.window } ∧ s.LeaseBecomes u k none ∧
        (∀ n : Mid,
          u.master n =
            { s.master n with orphan := State.orphanAfter (s.master n) (s.handle k) l.notices[n] }) ∧
        s.Answered t m 0x52 (.items .ok h.toNat l.hold.state.code progress) ∧ after t.scrub
    (l.hold.state = .held ∨ l.hold.state = .grace → s.AnsweredOnly (.clear m) m 0x52 (.bare .wrongState)) ∧
    (l.hold.state = .tainted → clears 0 fun e => e = s.scrub) ∧
    (l.hold.state = .scrub →
      ∀ older x younger p, s.scrub.list = older ++ x :: younger → x.handle = h →
        (x.state = .queued p → clears 0 fun e => e = { s.scrub with list := older ++ younger }) ∧
        (x.state = .active p →
          clears p fun e =>
            ScrubEngine.ActivatesTo { s.scrub with list := older ++ younger, breq := false } e))

/-- ADOPT by the supervisor after its handle check: SCRUBBING, WRONG_STATE and QUOTA; else the lease is the supervisor's
own in HELD, unlent, for the pool's maximum term under the former owner's tag, with its handle and notices kept. -/
def Obligations.AdoptTakesOver : Prop :=
  ∀ (s : State) (k : SlotIx) (l : Lease), s.Served → (s.master s.supmid).state = .attached →
    s.Names s.supmid k l →
    let m := s.supmid
    let h := (s.win m).argHandle
    let x := s.master m
    let n := (s.pool l.range.pool).maxTerm
    State.FirstOf
      [ (l.hold.state = .scrub, .bare .scrubbing), (l.hold.state = .held ∨ l.hold.state = .grace, .bare .wrongState),
        (x.quota ≤ x.held + x.waiting, .bare .quota) ]
      (s.AnsweredOnly (.adopt m) m 0x53)
      (∀ o tag, l.hold = .tainted o tag →
        ∃ t, exec (.adopt m) s = .next t ∧
          t = { s with slots := t.slots, masters := t.masters, window := t.window, bus := t.bus } ∧
          s.LeaseBecomes t k
            (some { l with hold := .held m tag { granted := n, remaining := n, warned := false } [] }) ∧
          s.MasterBecomes t m { x with held := x.held + 1 } ∧
          s.Answered t m 0x53 (.items .ok h.toNat n))

/-! ### Accesses -/

/-- An access to a granule under an EXCLUSIVE lease in HELD or GRACE: the current user's passes in both directions; the
owner that has lent it away and a delegate that has lent it on are refused with LENT_AWAY, every other master, the
supervisor included, with NOT_HOLDER, each refusal giving the slot. -/
def Obligations.AccessUnderExclusive : Prop :=
  ∀ (s : State) (m : Mid) (a : Word) (dir : Direction) (size : Nat) (data : Word) (k : SlotIx) (l : Lease) (o : Mid),
    s.Served → s.PoolLaw → s.CoverageLaw → s.Covers a k l → l.hold.owner? = some o →
    (s.master m).state ≠ .fenced →
    (m = o → l.hold.chain = [] → s.Passes (.access m a dir size data)) ∧
    (m ≠ o → l.hold.chain.getLast? = some m → s.Passes (.access m a dir size data)) ∧
    (m = o → l.hold.chain ≠ [] → s.Refuses m a dir size data .lentAway (some k)) ∧
    (m ≠ o → m ∈ l.hold.chain → l.hold.chain.getLast? ≠ some m →
      s.Refuses m a dir size data .lentAway (some k)) ∧
    (m ≠ o → m ∉ l.hold.chain → s.Refuses m a dir size data .notHolder (some k))

/-- An access to a granule under SHARED leases: a sharer of one that covers it reads, and is refused its writes with
READ_ONLY and the lowest such slot; any other master is refused with NOT_HOLDER and the lowest covering slot. -/
def Obligations.AccessUnderShared : Prop :=
  ∀ (s : State) (m : Mid) (a : Word) (size : Nat) (data : Word) (k : SlotIx) (l : Lease),
    s.Served → s.PoolLaw → s.CoverageLaw → s.Covers a k l → l.hold.mode = .shared →
    (s.master m).state ≠ .fenced →
    (l.hold.shares m = true → (∀ j l', j < k → s.Covers a j l' → l'.hold.shares m = false) →
      s.Passes (.access m a .read size data) ∧ s.Refuses m a .write size data .readOnly (some k)) ∧
    ((∀ j l', s.Covers a j l' → l'.hold.shares m = false) → (∀ j l', j < k → ¬s.Covers a j l') →
      ∀ dir, s.Refuses m a dir size data .notHolder (some k))

/-- Every governed access of a FENCED master is refused with FENCED and no slot, and every access of any other master to
a granule under a lease in TAINTED or SCRUB with TAINTED and its slot, in both directions. -/
def Obligations.AccessFencedOrTainted : Prop :=
  ∀ (s : State) (m : Mid) (a : Word) (dir : Direction) (size : Nat) (data : Word), s.Served → s.PoolLaw →
    ((s.master m).state = .fenced → (∃ p, s.Governs a p) → s.Refuses m a dir size data .fenced none) ∧
    ((s.master m).state ≠ .fenced → s.CoverageLaw →
      ∀ k l, s.Covers a k l → l.hold.state = .tainted ∨ l.hold.state = .scrub →
        s.Refuses m a dir size data .tainted (some k))

/-- An access to a granule that no lease covers, by a master that is not FENCED, is judged by its pool's policy; an access
outside the window to an address that no enabled pool holds passes for every master, and so does every one outside the
window during a reset. -/
def Obligations.AccessOutsideLeases : Prop :=
  ∀ (s : State) (m : Mid) (a : Word) (dir : Direction) (size : Nat) (data : Word), s.busHeld = false →
    (s.inReset = false → s.PoolLaw → ∀ p, s.Governs a p → (s.master m).state ≠ .fenced →
      (∀ k l, ¬s.Covers a k l) →
      ((s.pool p).policy = .openAll → s.Passes (.access m a dir size data)) ∧
      ((s.pool p).policy = .readOpen → dir = .read → s.Passes (.access m a dir size data)) ∧
      ((s.pool p).policy = .readOpen → dir = .write → s.Refuses m a dir size data .noLease none) ∧
      ((s.pool p).policy = .refuse → s.Refuses m a dir size data .noLease none)) ∧
    (a.toNat < s.windowBase ∨ s.windowBase + 256 ≤ a.toNat →
      s.inReset = true ∨ (∀ p, ¬s.Governs a p) → s.Passes (.access m a dir size data))

/-- The handling of a refusal report: the count rises and saturates at 15, an empty note is filled and a full one stays,
and a master other than the supervisor whose count meets its threshold above 0 is fenced at once, unless it is FENCED. -/
def Obligations.RefusalReported : Prop :=
  ∀ (s : State) (m : Mid) (n : Note),
    let x := s.master m
    let count := min 15 (x.violations + 1)
    let fences := m ≠ s.supmid ∧ x.state ≠ .fenced ∧ 0 < x.threshold ∧ x.threshold ≤ count
    ∃ u : State, u = { s with masters := u.masters } ∧
      s.MasterBecomes u m
        { x with violations := count, note := match x.note with | none => some n | some old => some old } ∧
      (¬fences → s.reportRefusal m n = u) ∧ (fences → s.reportRefusal m n = u.fenceMaster m)

/-- The write law: a write to a governed granule passes only for the current user of an EXCLUSIVE lease in HELD or GRACE
that covers it, or, uncovered, for a master that is not FENCED in an OPEN pool; and to a covered granule for one master
only. -/
def Obligations.WritesOnlyByCurrentUser : Prop :=
  ∀ (s : State) (a : Word) (p : PoolIx), s.Served → s.PoolLaw → s.Governs a p →
    let passes := fun m : Mid =>
      ∃ size data t, exec (.access m a .write size data) s = .next t ∧ t.bus = .passed
    (∀ m, passes m →
      (∃ k l, s.Covers a k l ∧ l.hold.live = true ∧ l.hold.currentUser? = some m) ∨
        ((∀ k l, ¬s.Covers a k l) ∧ (s.pool p).policy = .openAll ∧ (s.master m).state ≠ .fenced)) ∧
    ((∃ k l, s.Covers a k l) → ∀ m m', passes m → passes m' → m = m')

/-! ### Time -/

/-- A tick of the time base is due at both blocks and begins a period of the divider value plus 1; none is made during a
reset (due ticks are the model's: assumption log 4). The claim queue's tick lowers every wait, ends the entries whose wait
runs out, lowers their masters' waiting counts, and runs one grant pass when any ended. -/
def Obligations.TicksAndWaits : Prop :=
  ∀ s : State,
    let out := fun e : ClaimEntry => e.status = .waiting 0 ∨ e.status = .waiting 1
    (s.inReset = true → exec .tick s = .next s) ∧
    (s.inReset = false →
      ∃ t, exec .tick s = .next t ∧
        t = { s with
              time := { s.time with periodCount := 0, periodLength := s.time.divider + 1 }
              ticks :=
                { tableDue := s.ticks.tableDue + 1, queueDue := s.ticks.queueDue + 1, made := t.ticks.made } }) ∧
    ∃ t u : State, exec .claimQueueTick s = .next t ∧
      ((∃ e ∈ s.queue, out e) → t = u.grantPass) ∧ ((∀ e ∈ s.queue, ¬out e) → t = u) ∧
      u = { s with
            queue := u.queue
            masters := u.masters
            ticks := { s.ticks with queueDue := s.ticks.queueDue - 1 } } ∧
      u.queue =
        s.queue.map (fun e =>
          match e.status with
          | .ended => e
          | .waiting n => { e with status := if n ≤ 1 then .ended else .waiting (n - 1) }) ∧
      ∀ m : Mid,
        u.master m =
          { s.master m with
            waiting := (s.master m).waiting - s.queue.countP (fun e => e.claim.master = m ∧ out e) }

/-- The lease table's tick, slot by slot as Table 4-2 states: terms and graces fall by one; an exclusive term at the warn
level warns its owner, and one that runs out enters GRACE with EXPIRED, or TAINTED where the grace length is 0; a grace
that runs out enters TAINTED, which owner, delegates and supervisor hear; sharers whose terms run out hear EXPIRED and
leave, the last freeing the slot; and one grant pass runs when a sharer has left. That the command takes a tick that is due,
and runs all the same where none is, is the model's (MODEL'S CHOICE: assumption log 4). -/
def Obligations.LeaseTableTick : Prop :=
  ∀ s : State, s.ShapeLaw →
    let level := s.time.warnLevel
    let warns := fun n : Term =>
      n.remaining = level + 1 ∧ 0 < level ∧ level < n.granted ∧ n.warned = false
    let lower := fun n : Term =>
      { n with remaining := n.remaining - 1, warned := if warns n then true else n.warned }
    let taints := fun l : Lease =>
      (∃ o tag n c, l.hold = .held o tag n c ∧ n.remaining ≤ 1 ∧ s.time.graceLength = 0) ∨
        ∃ o tag n c left, l.hold = .grace o tag n c left ∧ left ≤ 1
    let kept := fun es : List Sharer => es.filter fun e => 1 < e.term.remaining
    let out := fun es : List Sharer => (es.filter fun e => e.term.remaining ≤ 1).map Sharer.master
    let told := fun (l : Lease) (es : List Sharer) =>
      s.raised (s.raised l.notices .warned ((es.filter fun e => warns e.term).map Sharer.master)) .expired (out es)
    ∃ t u : State, exec .leaseTableTick s = .next t ∧
      ((∃ k l, s.lease k = some l ∧ out l.hold.sharers ≠ []) → t = u.grantPass) ∧
      ((∀ k l, s.lease k = some l → out l.hold.sharers = []) → t = u) ∧
      u = { s with
            slots := u.slots
            masters := u.masters
            ticks := { s.ticks with tableDue := s.ticks.tableDue - 1 } } ∧
      (∀ k, (u.slot k).gen = (s.slot k).gen ∧ (s.lease k = none → u.lease k = none)) ∧
      (∀ k l, s.lease k = some l →
        (l.hold.closed = true → u.lease k = some l) ∧
        (∀ o tag n c, l.hold = .held o tag n c →
          (1 < n.remaining →
            u.lease k =
              some
                { l with
                  hold := .held o tag (lower n) c
                  notices := if warns n then s.raised l.notices .warned [o] else l.notices }) ∧
          (n.remaining ≤ 1 → 0 < s.time.graceLength →
            u.lease k =
              some
                { l with
                  hold := .grace o tag { n with remaining := 0 } c s.time.graceLength
                  notices := s.raised l.notices .expired [o] })) ∧
        (∀ o tag n c left, l.hold = .grace o tag n c left → 1 < left →
          u.lease k = some { l with hold := .grace o tag n c (left - 1) }) ∧
        (taints l →
          ∀ o, l.hold.owner? = some o →
            u.lease k =
              some
                { l with
                  hold := l.hold.taint
                  notices := s.raised l.notices .tainted (o :: l.hold.chain ++ [s.supmid]) }) ∧
        (∀ es, l.hold = .shared es →
          (kept es = [] → u.lease k = none) ∧
          (kept es ≠ [] →
            u.lease k =
              some
                { l with
                  hold := .shared ((kept es).map fun e => { e with term := lower e.term })
                  notices := told l es }))) ∧
      ∀ m : Mid,
        (∃ lost : SlotIx → Nat,
          (∀ k, s.lease k = none → lost k = 0) ∧
          (∀ k l, s.lease k = some l →
            (l.hold.owner? = some m → taints l → lost k = 1) ∧
            (l.hold.mode = .shared → lost k = (out l.hold.sharers).count m) ∧
            (l.hold.mode = .exclusive → l.hold.owner? ≠ some m ∨ ¬taints l → lost k = 0)) ∧
          u.master m =
            { s.master m with
              held := (s.master m).held - (allSlots.map lost).sum, orphan := (u.master m).orphan }) ∧
        ∃ freed : SlotIx → Option NoticeSet,
          (∀ k ns, freed k = some ns ↔
            ∃ l es, s.lease k = some l ∧ l.hold = .shared es ∧ kept es = [] ∧ ns = told l es) ∧
          s.OrphansOf u freed m

/-- TERM_EXPIRY, GRACE_END, SHARER_EXPIRY and WAIT_LIMIT_EXPIRY where the count named is on its last tick; elsewhere there
is no such event and nothing changes (MODEL'S CHOICE: assumption log 6). -/
def Obligations.ExpiryEvents : Prop :=
  ∀ (s : State) (k : SlotIx) (m : Mid) (tag : Tag),
    let enters := fun (c : Instr) (l : Lease) =>
      ∃ t, exec c s = .next t ∧ t = { s with slots := t.slots } ∧ s.LeaseBecomes t k (some l)
    let taints := fun (c : Instr) (l : Lease) (o : Mid) (g : Tag) (chain : List Mid) =>
      ∃ t, exec c s = .next t ∧ t = { s with slots := t.slots, masters := t.masters } ∧
        s.LeaseBecomes t k
          (some
            { l with
              hold := .tainted o g
              notices := s.raised l.notices .tainted (o :: chain ++ [s.supmid]) }) ∧
        s.MasterBecomes t o { s.master o with held := (s.master o).held - 1 }
    (∀ l o g n c, s.lease k = some l → l.hold = .held o g n c → n.remaining ≤ 1 →
      (0 < s.time.graceLength →
        enters (.termExpiry k)
          { l with
            hold := .grace o g { n with remaining := 0 } c s.time.graceLength
            notices := s.raised l.notices .expired [o] }) ∧
      (s.time.graceLength = 0 → taints (.termExpiry k) l o g c)) ∧
    ((∀ l o g n c, s.lease k = some l → l.hold = .held o g n c → 1 < n.remaining) →
      exec (.termExpiry k) s = .next s) ∧
    (∀ l o g n c left, s.lease k = some l → l.hold = .grace o g n c left → left ≤ 1 →
      taints (.graceEnd k) l o g c) ∧
    ((∀ l o g n c left, s.lease k = some l → l.hold = .grace o g n c left → 1 < left) →
      exec (.graceEnd k) s = .next s) ∧
    (∀ l older e younger, s.lease k = some l → l.hold = .shared (older ++ e :: younger) → e.master = m →
      e.term.remaining ≤ 1 → (∀ x ∈ older ++ younger, x.master ≠ m) →
      let told := s.raised l.notices .expired [m]
      let less := { s.master m with held := (s.master m).held - 1 }
      ∃ t u : State, exec (.sharerExpiry k m) s = .next t ∧ t = u.grantPass ∧
        u = { s with slots := u.slots, masters := u.masters } ∧
        (older ++ younger = [] →
          s.LeaseBecomes u k none ∧
            u.master m = { less with orphan := State.orphanAfter less (s.handle k) told[m] } ∧
            ∀ n, n ≠ m →
              u.master n =
                { s.master n with orphan := State.orphanAfter (s.master n) (s.handle k) l.notices[n] }) ∧
        (older ++ younger ≠ [] →
          s.LeaseBecomes u k (some { l with hold := .shared (older ++ younger), notices := told }) ∧
            s.MasterBecomes u m less)) ∧
    ((∀ l e, s.lease k = some l → e ∈ l.hold.sharers → e.master = m → 1 < e.term.remaining) →
      exec (.sharerExpiry k m) s = .next s) ∧
    (∀ older e younger, s.queue = older ++ e :: younger → e.claim.master = m → e.claim.tag = tag →
      e.status = .waiting 0 ∨ e.status = .waiting 1 →
      (∀ x ∈ older ++ younger, x.claim.master = m → x.claim.tag ≠ tag) →
      ∃ t u : State, exec (.waitLimitExpiry m tag) s = .next t ∧ t = u.grantPass ∧
        u = { s with queue := older ++ { e with status := .ended } :: younger, masters := u.masters } ∧
        s.MasterBecomes u m { s.master m with waiting := (s.master m).waiting - 1 }) ∧
    ((∀ e ∈ s.queue, e.claim.master = m → e.claim.tag = tag → e.status ≠ .waiting 0 ∧ e.status ≠ .waiting 1) →
      exec (.waitLimitExpiry m tag) s = .next s)

/-! ### The scrub link -/

/-- RUN_START and BGNT_DEASSERTED: a grant in answer to BREQ begins a run of the ACTIVE entry, its limit the run length in
force, its first word placed; a grant not asked for only raises BGNT. A withdrawal lets the word in flight be answered,
ends a run that has none, and lets BREQ be asserted for an ACTIVE entry. A grant given again while the word of a withdrawn
run is in flight only raises BGNT, and with no run in progress a withdrawal asserts BREQ (DEDUCED: assumption log 9); BGNT
asserted where it stands is no event (MODEL'S CHOICE: assumption log 6). -/
def Obligations.RunsBeginAndAreWithdrawn : Prop :=
  ∀ s : State,
    let e := s.scrub
    (e.bgnt = true → exec .runStart s = .next s) ∧
    (e.bgnt = false → e.breq = false ∨ e.run ≠ none →
      exec .runStart s = .next { s with scrub := { e with bgnt := true } }) ∧
    (∀ older x younger p, e.bgnt = false → e.breq = true → e.run = none → e.list = older ++ x :: younger →
      x.state = .active p → (∀ y ∈ older, y.active = false) →
      exec .runStart s =
        .next
          { s with
            scrub :=
              { e with
                bgnt := true
                run := some { limit := e.runLength, words := 0, withdrawn := false }
                flight := some { address := p, data := e.fill } } }) ∧
    (∀ r f, e.run = some r → e.flight = some f →
      exec .bgntDeasserted s =
        .next { s with scrub := { e with bgnt := false, run := some { r with withdrawn := true } } }) ∧
    (∀ r, e.run = some r → e.flight = none →
      exec .bgntDeasserted s =
        .next { s with scrub := { e with bgnt := false, run := none, breq := true } }.takeHeld) ∧
    (e.run = none → (∃ x ∈ e.list, x.active = true) →
      exec .bgntDeasserted s = .next { s with scrub := { e with bgnt := false, breq := true } }) ∧
    (e.run = none → (∀ x ∈ e.list, x.active = false) →
      exec .bgntDeasserted s = .next { s with scrub := { e with bgnt := false } })

/-- SCRUB_WORD_ACK and SCRUB_WRITE_ERROR for the word in flight: an acknowledgement moves the progress on and places the
next word, or ends the run at its limit or after a withdrawal; the last one completes the scrub, freeing the slot, with a
grant pass; an error fails the entry and taints the lease again. A finished entry is kept only for an ATTACHED supervisor,
and activation comes last. The end of a run lets the transactions on that waited for it (MODEL'S CHOICE of that moment:
assumption log 5). BREQ is asserted again at a run's end only where BGNT is low (DEDUCED: assumption log 9), and with no
word in flight there is no such event (MODEL'S CHOICE: assumption log 6). -/
def Obligations.WordsAreAnswered : Prop :=
  ∀ s : State, s.ScrubLaw →
    let e := s.scrub
    (e.flight = none → exec .scrubWordAck s = .next s ∧ exec .scrubWriteError s = .next s) ∧
    ∀ (older younger : List ScrubEntry) (x : ScrubEntry) (p : Nat) (r : Run) (f : Flight) (k : SlotIx) (l : Lease)
        (o : Mid) (tag : Tag),
      e.list = older ++ x :: younger → x.state = .active p → e.run = some r → e.flight = some f →
      x.handle = s.handle k → s.lease k = some l → l.hold = .scrub o tag →
      let pool := s.pool l.range.pool
      let top := pool.base.toNat + (l.range.first + l.range.count) * pool.granule.bytes
      let moved := older ++ { x with state := .active (p + 4) } :: younger
      let ended := fun st =>
        { e with
          list :=
            if s.attached s.supmid = true then older ++ { x with state := st } :: younger
            else older ++ younger
          breq := false
          run := none
          flight := none }
      (p + 4 < top → r.words + 1 < r.limit → r.withdrawn = false →
        exec .scrubWordAck s =
          .next
            { s with
              scrub :=
                { e with
                  list := moved
                  run := some { r with words := r.words + 1 }
                  flight := some { address := p + 4, data := e.fill } } }) ∧
      (p + 4 < top → r.limit ≤ r.words + 1 ∨ r.withdrawn = true →
        exec .scrubWordAck s =
          .next
            { s with
              scrub := { e with list := moved, run := none, flight := none, breq := !e.bgnt } }.takeHeld) ∧
      (top ≤ p + 4 →
        ∃ t u : State, exec .scrubWordAck s = .next t.takeHeld ∧ t = { u.grantPass with scrub := t.scrub } ∧
          u = { s with slots := u.slots, masters := u.masters } ∧ s.LeaseBecomes u k none ∧
          (∀ n : Mid,
            u.master n =
              { s.master n with orphan := State.orphanAfter (s.master n) (s.handle k) l.notices[n] }) ∧
          (ended .done).ActivatesTo t.scrub) ∧
      ∃ t, exec .scrubWriteError s = .next t.takeHeld ∧ t = { s with slots := t.slots, scrub := t.scrub } ∧
        s.LeaseBecomes t k (some { l with hold := .tainted o tag }) ∧
        (ended (.failed f.address)).ActivatesTo t.scrub

/-- While a scrub run is in progress no master's transaction is on the bus: a request, a window access and an access wait,
with no other effect. At the end of the run those that wait are taken in their order, each as if it were commanded then
(MODEL'S CHOICE of that moment: assumption log 5). -/
def Obligations.ScrubHoldsBus : Prop :=
  ∀ (s : State) (m : Mid),
    let at_ := fun offset : BitVec 8 => BitVec.ofNat 32 (s.windowBase + offset.toNat)
    let waits := fun (c : Instr) (a : Word) (dir : Direction) (size : Nat) (data : Word) =>
      exec c s =
        .next { s with held := s.held ++ [{ master := m, address := a, dir := dir, size := size, data := data }] }
    (s.scrub.run ≠ none →
      (∀ r : Request, waits (r.command m) (at_ 0) .write 4 (r.code.setWidth 32)) ∧
      (∀ code, waits (.unknownRequest m code) (at_ 0) .write 4 (code.setWidth 32)) ∧
      (∀ offset data, waits (.windowWrite m offset data) (at_ offset) .write 4 data) ∧
      (∀ offset dir size data, waits (.malformedWindowAccess m offset dir size data) (at_ offset) dir size data) ∧
      ∀ a dir size data, waits (.access m a dir size data) a dir size data) ∧
    (s.held = [] → s.takeHeld = s) ∧
    ∀ x rest t, s.scrub.run = none → s.held = x :: rest →
      exec (.access x.master x.address x.dir x.size x.data) { s with held := rest } = .next t →
        s.takeHeld = t.takeHeld

/-! ### Resets -/

/-- POWER_ON_RESET and PIN_RESET put every block at its reset values with the straps sampled and the cause recorded (POWER
for a pin reset during a power-on reset), and no other command samples the straps; END_OF_RESET ends the reset and changes
nothing else; during a reset a request gets the bus error response. No command but its own step takes a waiting command, and
BGNT is not the part's to reset (MODEL'S CHOICE: assumption log 12). The cause of a pin reset during a power-on reset is
DEDUCED (assumption log 13); that no tick is due after a reset (assumption log 4) and that no transaction waits through one
(assumption log 5) are MODEL'S CHOICES. -/
def Obligations.ResetValues : Prop :=
  ∀ (s : State) (sup : Mid) (seg : BitVec 4),
    let resets := fun (c : Instr) (cause : ResetCause) =>
      ∃ t, exec c s = .next t ∧
        (∀ p, t.pool p =
          { enabled := false, base := 0, size := 1, granule := .b256, policy := .refuse, maxTerm := 65535 }) ∧
        (∀ k, t.slot k = { gen := 0, lease := none }) ∧ t.queue = [] ∧
        (∀ n, t.master n =
          { state := .detached, quota := 8, threshold := 4, held := 0, waiting := 0, violations := 0, note := none
            orphan := none }) ∧
        (∀ n, t.atn n = false) ∧
        t.time =
          { divider := 15999, warnLevel := 8, graceLength := 4, periodCount := 0, periodLength := 16000 } ∧
        t.ticks.tableDue = 0 ∧ t.ticks.queueDue = 0 ∧
        t.scrub =
          { list := [], fill := 0, runLength := 16, breq := false, bgnt := s.scrub.bgnt, run := none
            flight := none } ∧
        (∀ n, t.win n =
          { arg0 := 0, arg1 := 0, arg2 := 0, arg3 := 0, lastCode := 0, result := 0, answered := 0, seq := 0
            val0 := 0, val1 := 0, val2 := 0, val3 := 0 }) ∧
        t.supmid = sup ∧ t.wseg = seg ∧ t.cause = cause ∧ t.inReset = true ∧ t.held = [] ∧ t.pending = s.pending
    resets (.powerOnReset sup seg) .power ∧
    resets (.pinReset sup seg) (if s.inReset = true ∧ s.cause = .power then .power else .pin) ∧
    exec .endOfReset s = .next { s with inReset := false } ∧
    (s.inReset = true → s.busHeld = false →
      ∀ m : Mid,
        (∀ r : Request, exec (r.command m) s = .next { s with bus := .error 0 }) ∧
        (∀ code, exec (.unknownRequest m code) s = .next { s with bus := .error 0 }) ∧
        ∀ offset data, exec (.windowWrite m offset data) s = .next { s with bus := .error 0 }) ∧
    ∀ (t : State) (c : Instr), exec c s = .next t →
      t.pending = s.pending ∧
        ((∀ sup' seg', c ≠ .powerOnReset sup' seg' ∧ c ≠ .pinReset sup' seg') →
          t.supmid = s.supmid ∧ t.wseg = s.wseg)

/-! ### Headlines -/

/-- What a grant pass does (R61 to R64). Where every entry is passed over it changes nothing. Else the oldest entry that is
not passed over leaves the queue, every other entry in its place: it joins the SHARED lease of exactly its range, or takes
the lowest-numbered FREE slot under the next generation, with GRANTED raised for its master and its counts moved; and the
pass goes on from there. A second pass changes nothing. -/
def Obligations.GrantPassSettles : Prop :=
  ∀ s : State,
    ((∀ older e younger, s.queue = older ++ e :: younger → s.PassedOver older e) → s.grantPass = s) ∧
    (∀ older e younger k, s.queue = older ++ e :: younger →
      (∀ front x back, older = front ++ x :: back → s.PassedOver front x) → ¬s.PassedOver older e →
      let c := e.claim
      let term : Term := { granted := c.term, remaining := c.term, warned := false }
      let entry : Sharer := { master := c.master, tag := c.tag, term := term }
      (∀ l es, c.mode = .shared → s.lease k = some l → l.hold = .shared es → l.range = c.range →
        (∀ j l', j < k → s.lease j = some l' → l'.hold.mode = .shared → l'.range ≠ c.range) →
        ∃ u, s.grantPass = u.grantPass ∧
          s.GrantedInPass u e (older ++ younger) k
            { gen := (s.slot k).gen
              lease :=
                some
                  { l with
                    hold := .shared (es ++ [entry]), notices := s.raised l.notices .granted [c.master] } }) ∧
      (s.lease k = none → (∀ j, j < k → s.lease j ≠ none) →
        (c.mode = .shared → ∀ j l, s.lease j = some l → l.hold.mode = .shared → l.range ≠ c.range) →
        ∃ u, s.grantPass = u.grantPass ∧
          s.GrantedInPass u e (older ++ younger) k
            { gen := (s.slot k).gen + 1
              lease :=
                some
                  { range := c.range
                    hold := if c.mode = .exclusive then .held c.master c.tag term [] else .shared [entry]
                    notices := s.raised NoticeSet.empty .granted [c.master] } })) ∧
    s.grantPass.grantPass = s.grantPass

/-- Generations count grants, over any step but a power-on or pin reset. Where the step ends no run or has no transaction
waiting for that, a slot keeps its generation, a FREE one staying FREE, or takes the next one and holds a lease. A step that
ends a run takes the waiting transactions with it (MODEL'S CHOICE of that moment: assumption log 5): the generation moves on
at most once for the step's own event and once for each of them, and at least once where a FREE slot comes to hold a lease. -/
def Obligations.GenerationsCountGrants : Prop :=
  ∀ s t : State, step s = .next t →
    (∀ sup seg, s.pending.head? ≠ some (.powerOnReset sup seg) ∧ s.pending.head? ≠ some (.pinReset sup seg)) →
    ∀ k,
      (s.held = [] ∨ s.scrub.run = none ∨ t.scrub.run ≠ none →
        (t.slot k).gen = (s.slot k).gen ∧ (s.lease k = none → t.lease k = none) ∨
          (t.slot k).gen = (s.slot k).gen + 1 ∧ t.lease k ≠ none) ∧
      ∃ n, n ≤ s.held.length + 1 ∧ (t.slot k).gen = (s.slot k).gen + BitVec.ofNat 8 n ∧
        (s.lease k = none → t.lease k ≠ none → 1 ≤ n)

/-- Every step keeps the coverage law of R26: an EXCLUSIVE lease overlaps no other lease, and no two SHARED leases have
the same range. -/
def Obligations.CoverageKept : Prop :=
  ∀ s t : State, s.CoverageLaw → step s = .next t → t.CoverageLaw

/-- Every step keeps the shape of chains and sharer lists, the queue law and the quota law together: the held and waiting
counts are what R128 says they count and never exceed the quota. -/
def Obligations.CountsKept : Prop :=
  ∀ s t : State, s.ShapeLaw → s.QueueLaw → s.QuotaLaw → step s = .next t →
    t.ShapeLaw ∧ t.QueueLaw ∧ t.QuotaLaw

/-- Every step keeps the attachment law, the threshold law and the supervisor law: a master that is not ATTACHED has
nothing, and a master whose count meets its threshold is FENCED, but for the supervisor, which never is. -/
def Obligations.AttachmentKept : Prop :=
  ∀ s t : State, step s = .next t →
    (s.AttachmentLaw → t.AttachmentLaw) ∧ (s.ThresholdLaw → t.ThresholdLaw) ∧ (s.SupervisorLaw → t.SupervisorLaw)

/-- Every step keeps the pool law, the range law and the term law: enabled pools share no byte with one another or with
the window, everything granted or waiting lies in an enabled pool, and no count that runs stands at 0. -/
def Obligations.PoolsRangesTermsKept : Prop :=
  ∀ s t : State, step s = .next t →
    (s.PoolLaw → t.PoolLaw) ∧ (s.RangeLaw → t.RangeLaw) ∧ (s.TermLaw → t.TermLaw)

/-- Every step keeps the scrub law: at most one entry is ACTIVE, the live entries are those of the leases in SCRUB, BREQ and
a run belong to an ACTIVE entry, and a word is in flight exactly during a run. That a master's transaction waits only during
a run is MODEL'S CHOICE: assumption log 5 (R156 has it wait until the run ends, and the model takes it as soon as it does). -/
def Obligations.ScrubLawKept : Prop := ∀ s t : State, s.ScrubLaw → step s = .next t → t.ScrubLaw
end

