-- ==== Sys2Proof/Laws/State.lean ====
section
/-! SUPPORT. One lemma per field per update of the state, and reading a record after replacing one. With these no proof
has to unfold a record update. -/

namespace Sys2Proof.Machine.State

variable (s : State)

/-! ### setPool -/

@[simp] theorem setPool_pools (p : PoolIx) (x : Pool) : (s.setPool p x).pools = s.pools.set p x := rfl
@[simp] theorem setPool_slots (p : PoolIx) (x : Pool) : (s.setPool p x).slots = s.slots := rfl
@[simp] theorem setPool_queue (p : PoolIx) (x : Pool) : (s.setPool p x).queue = s.queue := rfl
@[simp] theorem setPool_masters (p : PoolIx) (x : Pool) : (s.setPool p x).masters = s.masters := rfl
@[simp] theorem setPool_time (p : PoolIx) (x : Pool) : (s.setPool p x).time = s.time := rfl
@[simp] theorem setPool_ticks (p : PoolIx) (x : Pool) : (s.setPool p x).ticks = s.ticks := rfl
@[simp] theorem setPool_scrub (p : PoolIx) (x : Pool) : (s.setPool p x).scrub = s.scrub := rfl
@[simp] theorem setPool_window (p : PoolIx) (x : Pool) : (s.setPool p x).window = s.window := rfl
@[simp] theorem setPool_supmid (p : PoolIx) (x : Pool) : (s.setPool p x).supmid = s.supmid := rfl
@[simp] theorem setPool_wseg (p : PoolIx) (x : Pool) : (s.setPool p x).wseg = s.wseg := rfl
@[simp] theorem setPool_cause (p : PoolIx) (x : Pool) : (s.setPool p x).cause = s.cause := rfl
@[simp] theorem setPool_inReset (p : PoolIx) (x : Pool) : (s.setPool p x).inReset = s.inReset := rfl
@[simp] theorem setPool_bus (p : PoolIx) (x : Pool) : (s.setPool p x).bus = s.bus := rfl
@[simp] theorem setPool_held (p : PoolIx) (x : Pool) : (s.setPool p x).held = s.held := rfl
@[simp] theorem setPool_pending (p : PoolIx) (x : Pool) : (s.setPool p x).pending = s.pending := rfl

/-! ### setSlot -/

@[simp] theorem setSlot_pools (k : SlotIx) (x : Slot) : (s.setSlot k x).pools = s.pools := rfl
@[simp] theorem setSlot_slots (k : SlotIx) (x : Slot) : (s.setSlot k x).slots = s.slots.set k x := rfl
@[simp] theorem setSlot_queue (k : SlotIx) (x : Slot) : (s.setSlot k x).queue = s.queue := rfl
@[simp] theorem setSlot_masters (k : SlotIx) (x : Slot) : (s.setSlot k x).masters = s.masters := rfl
@[simp] theorem setSlot_time (k : SlotIx) (x : Slot) : (s.setSlot k x).time = s.time := rfl
@[simp] theorem setSlot_ticks (k : SlotIx) (x : Slot) : (s.setSlot k x).ticks = s.ticks := rfl
@[simp] theorem setSlot_scrub (k : SlotIx) (x : Slot) : (s.setSlot k x).scrub = s.scrub := rfl
@[simp] theorem setSlot_window (k : SlotIx) (x : Slot) : (s.setSlot k x).window = s.window := rfl
@[simp] theorem setSlot_supmid (k : SlotIx) (x : Slot) : (s.setSlot k x).supmid = s.supmid := rfl
@[simp] theorem setSlot_wseg (k : SlotIx) (x : Slot) : (s.setSlot k x).wseg = s.wseg := rfl
@[simp] theorem setSlot_cause (k : SlotIx) (x : Slot) : (s.setSlot k x).cause = s.cause := rfl
@[simp] theorem setSlot_inReset (k : SlotIx) (x : Slot) : (s.setSlot k x).inReset = s.inReset := rfl
@[simp] theorem setSlot_bus (k : SlotIx) (x : Slot) : (s.setSlot k x).bus = s.bus := rfl
@[simp] theorem setSlot_held (k : SlotIx) (x : Slot) : (s.setSlot k x).held = s.held := rfl
@[simp] theorem setSlot_pending (k : SlotIx) (x : Slot) : (s.setSlot k x).pending = s.pending := rfl

/-! ### setMaster -/

@[simp] theorem setMaster_pools (m : Mid) (x : Master) : (s.setMaster m x).pools = s.pools := rfl
@[simp] theorem setMaster_slots (m : Mid) (x : Master) : (s.setMaster m x).slots = s.slots := rfl
@[simp] theorem setMaster_queue (m : Mid) (x : Master) : (s.setMaster m x).queue = s.queue := rfl
@[simp] theorem setMaster_masters (m : Mid) (x : Master) : (s.setMaster m x).masters = s.masters.set m x := rfl
@[simp] theorem setMaster_time (m : Mid) (x : Master) : (s.setMaster m x).time = s.time := rfl
@[simp] theorem setMaster_ticks (m : Mid) (x : Master) : (s.setMaster m x).ticks = s.ticks := rfl
@[simp] theorem setMaster_scrub (m : Mid) (x : Master) : (s.setMaster m x).scrub = s.scrub := rfl
@[simp] theorem setMaster_window (m : Mid) (x : Master) : (s.setMaster m x).window = s.window := rfl
@[simp] theorem setMaster_supmid (m : Mid) (x : Master) : (s.setMaster m x).supmid = s.supmid := rfl
@[simp] theorem setMaster_wseg (m : Mid) (x : Master) : (s.setMaster m x).wseg = s.wseg := rfl
@[simp] theorem setMaster_cause (m : Mid) (x : Master) : (s.setMaster m x).cause = s.cause := rfl
@[simp] theorem setMaster_inReset (m : Mid) (x : Master) : (s.setMaster m x).inReset = s.inReset := rfl
@[simp] theorem setMaster_bus (m : Mid) (x : Master) : (s.setMaster m x).bus = s.bus := rfl
@[simp] theorem setMaster_held (m : Mid) (x : Master) : (s.setMaster m x).held = s.held := rfl
@[simp] theorem setMaster_pending (m : Mid) (x : Master) : (s.setMaster m x).pending = s.pending := rfl

/-! ### setWin -/

@[simp] theorem setWin_pools (m : Mid) (x : WindowSlot) : (s.setWin m x).pools = s.pools := rfl
@[simp] theorem setWin_slots (m : Mid) (x : WindowSlot) : (s.setWin m x).slots = s.slots := rfl
@[simp] theorem setWin_queue (m : Mid) (x : WindowSlot) : (s.setWin m x).queue = s.queue := rfl
@[simp] theorem setWin_masters (m : Mid) (x : WindowSlot) : (s.setWin m x).masters = s.masters := rfl
@[simp] theorem setWin_time (m : Mid) (x : WindowSlot) : (s.setWin m x).time = s.time := rfl
@[simp] theorem setWin_ticks (m : Mid) (x : WindowSlot) : (s.setWin m x).ticks = s.ticks := rfl
@[simp] theorem setWin_scrub (m : Mid) (x : WindowSlot) : (s.setWin m x).scrub = s.scrub := rfl
@[simp] theorem setWin_window (m : Mid) (x : WindowSlot) : (s.setWin m x).window = s.window.set m x := rfl
@[simp] theorem setWin_supmid (m : Mid) (x : WindowSlot) : (s.setWin m x).supmid = s.supmid := rfl
@[simp] theorem setWin_wseg (m : Mid) (x : WindowSlot) : (s.setWin m x).wseg = s.wseg := rfl
@[simp] theorem setWin_cause (m : Mid) (x : WindowSlot) : (s.setWin m x).cause = s.cause := rfl
@[simp] theorem setWin_inReset (m : Mid) (x : WindowSlot) : (s.setWin m x).inReset = s.inReset := rfl
@[simp] theorem setWin_bus (m : Mid) (x : WindowSlot) : (s.setWin m x).bus = s.bus := rfl
@[simp] theorem setWin_held (m : Mid) (x : WindowSlot) : (s.setWin m x).held = s.held := rfl
@[simp] theorem setWin_pending (m : Mid) (x : WindowSlot) : (s.setWin m x).pending = s.pending := rfl

/-! ### setQueue -/

@[simp] theorem setQueue_pools (q : List ClaimEntry) : (s.setQueue q).pools = s.pools := rfl
@[simp] theorem setQueue_slots (q : List ClaimEntry) : (s.setQueue q).slots = s.slots := rfl
@[simp] theorem setQueue_queue (q : List ClaimEntry) : (s.setQueue q).queue = q := rfl
@[simp] theorem setQueue_masters (q : List ClaimEntry) : (s.setQueue q).masters = s.masters := rfl
@[simp] theorem setQueue_time (q : List ClaimEntry) : (s.setQueue q).time = s.time := rfl
@[simp] theorem setQueue_ticks (q : List ClaimEntry) : (s.setQueue q).ticks = s.ticks := rfl
@[simp] theorem setQueue_scrub (q : List ClaimEntry) : (s.setQueue q).scrub = s.scrub := rfl
@[simp] theorem setQueue_window (q : List ClaimEntry) : (s.setQueue q).window = s.window := rfl
@[simp] theorem setQueue_supmid (q : List ClaimEntry) : (s.setQueue q).supmid = s.supmid := rfl
@[simp] theorem setQueue_wseg (q : List ClaimEntry) : (s.setQueue q).wseg = s.wseg := rfl
@[simp] theorem setQueue_cause (q : List ClaimEntry) : (s.setQueue q).cause = s.cause := rfl
@[simp] theorem setQueue_inReset (q : List ClaimEntry) : (s.setQueue q).inReset = s.inReset := rfl
@[simp] theorem setQueue_bus (q : List ClaimEntry) : (s.setQueue q).bus = s.bus := rfl
@[simp] theorem setQueue_held (q : List ClaimEntry) : (s.setQueue q).held = s.held := rfl
@[simp] theorem setQueue_pending (q : List ClaimEntry) : (s.setQueue q).pending = s.pending := rfl

/-! ### setTime -/

@[simp] theorem setTime_pools (t : TimeBase) : (s.setTime t).pools = s.pools := rfl
@[simp] theorem setTime_slots (t : TimeBase) : (s.setTime t).slots = s.slots := rfl
@[simp] theorem setTime_queue (t : TimeBase) : (s.setTime t).queue = s.queue := rfl
@[simp] theorem setTime_masters (t : TimeBase) : (s.setTime t).masters = s.masters := rfl
@[simp] theorem setTime_time (t : TimeBase) : (s.setTime t).time = t := rfl
@[simp] theorem setTime_ticks (t : TimeBase) : (s.setTime t).ticks = s.ticks := rfl
@[simp] theorem setTime_scrub (t : TimeBase) : (s.setTime t).scrub = s.scrub := rfl
@[simp] theorem setTime_window (t : TimeBase) : (s.setTime t).window = s.window := rfl
@[simp] theorem setTime_supmid (t : TimeBase) : (s.setTime t).supmid = s.supmid := rfl
@[simp] theorem setTime_wseg (t : TimeBase) : (s.setTime t).wseg = s.wseg := rfl
@[simp] theorem setTime_cause (t : TimeBase) : (s.setTime t).cause = s.cause := rfl
@[simp] theorem setTime_inReset (t : TimeBase) : (s.setTime t).inReset = s.inReset := rfl
@[simp] theorem setTime_bus (t : TimeBase) : (s.setTime t).bus = s.bus := rfl
@[simp] theorem setTime_held (t : TimeBase) : (s.setTime t).held = s.held := rfl
@[simp] theorem setTime_pending (t : TimeBase) : (s.setTime t).pending = s.pending := rfl

/-! ### setTicks -/

@[simp] theorem setTicks_pools (t : Ticks) : (s.setTicks t).pools = s.pools := rfl
@[simp] theorem setTicks_slots (t : Ticks) : (s.setTicks t).slots = s.slots := rfl
@[simp] theorem setTicks_queue (t : Ticks) : (s.setTicks t).queue = s.queue := rfl
@[simp] theorem setTicks_masters (t : Ticks) : (s.setTicks t).masters = s.masters := rfl
@[simp] theorem setTicks_time (t : Ticks) : (s.setTicks t).time = s.time := rfl
@[simp] theorem setTicks_ticks (t : Ticks) : (s.setTicks t).ticks = t := rfl
@[simp] theorem setTicks_scrub (t : Ticks) : (s.setTicks t).scrub = s.scrub := rfl
@[simp] theorem setTicks_window (t : Ticks) : (s.setTicks t).window = s.window := rfl
@[simp] theorem setTicks_supmid (t : Ticks) : (s.setTicks t).supmid = s.supmid := rfl
@[simp] theorem setTicks_wseg (t : Ticks) : (s.setTicks t).wseg = s.wseg := rfl
@[simp] theorem setTicks_cause (t : Ticks) : (s.setTicks t).cause = s.cause := rfl
@[simp] theorem setTicks_inReset (t : Ticks) : (s.setTicks t).inReset = s.inReset := rfl
@[simp] theorem setTicks_bus (t : Ticks) : (s.setTicks t).bus = s.bus := rfl
@[simp] theorem setTicks_held (t : Ticks) : (s.setTicks t).held = s.held := rfl
@[simp] theorem setTicks_pending (t : Ticks) : (s.setTicks t).pending = s.pending := rfl

/-! ### setScrub -/

@[simp] theorem setScrub_pools (e : ScrubEngine) : (s.setScrub e).pools = s.pools := rfl
@[simp] theorem setScrub_slots (e : ScrubEngine) : (s.setScrub e).slots = s.slots := rfl
@[simp] theorem setScrub_queue (e : ScrubEngine) : (s.setScrub e).queue = s.queue := rfl
@[simp] theorem setScrub_masters (e : ScrubEngine) : (s.setScrub e).masters = s.masters := rfl
@[simp] theorem setScrub_time (e : ScrubEngine) : (s.setScrub e).time = s.time := rfl
@[simp] theorem setScrub_ticks (e : ScrubEngine) : (s.setScrub e).ticks = s.ticks := rfl
@[simp] theorem setScrub_scrub (e : ScrubEngine) : (s.setScrub e).scrub = e := rfl
@[simp] theorem setScrub_window (e : ScrubEngine) : (s.setScrub e).window = s.window := rfl
@[simp] theorem setScrub_supmid (e : ScrubEngine) : (s.setScrub e).supmid = s.supmid := rfl
@[simp] theorem setScrub_wseg (e : ScrubEngine) : (s.setScrub e).wseg = s.wseg := rfl
@[simp] theorem setScrub_cause (e : ScrubEngine) : (s.setScrub e).cause = s.cause := rfl
@[simp] theorem setScrub_inReset (e : ScrubEngine) : (s.setScrub e).inReset = s.inReset := rfl
@[simp] theorem setScrub_bus (e : ScrubEngine) : (s.setScrub e).bus = s.bus := rfl
@[simp] theorem setScrub_held (e : ScrubEngine) : (s.setScrub e).held = s.held := rfl
@[simp] theorem setScrub_pending (e : ScrubEngine) : (s.setScrub e).pending = s.pending := rfl

/-! ### setBus -/

@[simp] theorem setBus_pools (b : BusResponse) : (s.setBus b).pools = s.pools := rfl
@[simp] theorem setBus_slots (b : BusResponse) : (s.setBus b).slots = s.slots := rfl
@[simp] theorem setBus_queue (b : BusResponse) : (s.setBus b).queue = s.queue := rfl
@[simp] theorem setBus_masters (b : BusResponse) : (s.setBus b).masters = s.masters := rfl
@[simp] theorem setBus_time (b : BusResponse) : (s.setBus b).time = s.time := rfl
@[simp] theorem setBus_ticks (b : BusResponse) : (s.setBus b).ticks = s.ticks := rfl
@[simp] theorem setBus_scrub (b : BusResponse) : (s.setBus b).scrub = s.scrub := rfl
@[simp] theorem setBus_window (b : BusResponse) : (s.setBus b).window = s.window := rfl
@[simp] theorem setBus_supmid (b : BusResponse) : (s.setBus b).supmid = s.supmid := rfl
@[simp] theorem setBus_wseg (b : BusResponse) : (s.setBus b).wseg = s.wseg := rfl
@[simp] theorem setBus_cause (b : BusResponse) : (s.setBus b).cause = s.cause := rfl
@[simp] theorem setBus_inReset (b : BusResponse) : (s.setBus b).inReset = s.inReset := rfl
@[simp] theorem setBus_bus (b : BusResponse) : (s.setBus b).bus = b := rfl
@[simp] theorem setBus_held (b : BusResponse) : (s.setBus b).held = s.held := rfl
@[simp] theorem setBus_pending (b : BusResponse) : (s.setBus b).pending = s.pending := rfl

/-! ### setHeld -/

@[simp] theorem setHeld_pools (q : List Transaction) : (s.setHeld q).pools = s.pools := rfl
@[simp] theorem setHeld_slots (q : List Transaction) : (s.setHeld q).slots = s.slots := rfl
@[simp] theorem setHeld_queue (q : List Transaction) : (s.setHeld q).queue = s.queue := rfl
@[simp] theorem setHeld_masters (q : List Transaction) : (s.setHeld q).masters = s.masters := rfl
@[simp] theorem setHeld_time (q : List Transaction) : (s.setHeld q).time = s.time := rfl
@[simp] theorem setHeld_ticks (q : List Transaction) : (s.setHeld q).ticks = s.ticks := rfl
@[simp] theorem setHeld_scrub (q : List Transaction) : (s.setHeld q).scrub = s.scrub := rfl
@[simp] theorem setHeld_window (q : List Transaction) : (s.setHeld q).window = s.window := rfl
@[simp] theorem setHeld_supmid (q : List Transaction) : (s.setHeld q).supmid = s.supmid := rfl
@[simp] theorem setHeld_wseg (q : List Transaction) : (s.setHeld q).wseg = s.wseg := rfl
@[simp] theorem setHeld_cause (q : List Transaction) : (s.setHeld q).cause = s.cause := rfl
@[simp] theorem setHeld_inReset (q : List Transaction) : (s.setHeld q).inReset = s.inReset := rfl
@[simp] theorem setHeld_bus (q : List Transaction) : (s.setHeld q).bus = s.bus := rfl
@[simp] theorem setHeld_held (q : List Transaction) : (s.setHeld q).held = q := rfl
@[simp] theorem setHeld_pending (q : List Transaction) : (s.setHeld q).pending = s.pending := rfl

/-! ### setPending -/

@[simp] theorem setPending_pools (q : List Instr) : (s.setPending q).pools = s.pools := rfl
@[simp] theorem setPending_slots (q : List Instr) : (s.setPending q).slots = s.slots := rfl
@[simp] theorem setPending_queue (q : List Instr) : (s.setPending q).queue = s.queue := rfl
@[simp] theorem setPending_masters (q : List Instr) : (s.setPending q).masters = s.masters := rfl
@[simp] theorem setPending_time (q : List Instr) : (s.setPending q).time = s.time := rfl
@[simp] theorem setPending_ticks (q : List Instr) : (s.setPending q).ticks = s.ticks := rfl
@[simp] theorem setPending_scrub (q : List Instr) : (s.setPending q).scrub = s.scrub := rfl
@[simp] theorem setPending_window (q : List Instr) : (s.setPending q).window = s.window := rfl
@[simp] theorem setPending_supmid (q : List Instr) : (s.setPending q).supmid = s.supmid := rfl
@[simp] theorem setPending_wseg (q : List Instr) : (s.setPending q).wseg = s.wseg := rfl
@[simp] theorem setPending_cause (q : List Instr) : (s.setPending q).cause = s.cause := rfl
@[simp] theorem setPending_inReset (q : List Instr) : (s.setPending q).inReset = s.inReset := rfl
@[simp] theorem setPending_bus (q : List Instr) : (s.setPending q).bus = s.bus := rfl
@[simp] theorem setPending_held (q : List Instr) : (s.setPending q).held = s.held := rfl
@[simp] theorem setPending_pending (q : List Instr) : (s.setPending q).pending = q := rfl

/-! ### setLease -/

@[simp] theorem setLease_pools (k : SlotIx) (l : Lease) : (s.setLease k l).pools = s.pools := rfl
@[simp] theorem setLease_queue (k : SlotIx) (l : Lease) : (s.setLease k l).queue = s.queue := rfl
@[simp] theorem setLease_masters (k : SlotIx) (l : Lease) : (s.setLease k l).masters = s.masters := rfl
@[simp] theorem setLease_time (k : SlotIx) (l : Lease) : (s.setLease k l).time = s.time := rfl
@[simp] theorem setLease_ticks (k : SlotIx) (l : Lease) : (s.setLease k l).ticks = s.ticks := rfl
@[simp] theorem setLease_scrub (k : SlotIx) (l : Lease) : (s.setLease k l).scrub = s.scrub := rfl
@[simp] theorem setLease_window (k : SlotIx) (l : Lease) : (s.setLease k l).window = s.window := rfl
@[simp] theorem setLease_supmid (k : SlotIx) (l : Lease) : (s.setLease k l).supmid = s.supmid := rfl
@[simp] theorem setLease_wseg (k : SlotIx) (l : Lease) : (s.setLease k l).wseg = s.wseg := rfl
@[simp] theorem setLease_cause (k : SlotIx) (l : Lease) : (s.setLease k l).cause = s.cause := rfl
@[simp] theorem setLease_inReset (k : SlotIx) (l : Lease) : (s.setLease k l).inReset = s.inReset := rfl
@[simp] theorem setLease_bus (k : SlotIx) (l : Lease) : (s.setLease k l).bus = s.bus := rfl
@[simp] theorem setLease_held (k : SlotIx) (l : Lease) : (s.setLease k l).held = s.held := rfl
@[simp] theorem setLease_pending (k : SlotIx) (l : Lease) : (s.setLease k l).pending = s.pending := rfl

/-! ### mapSlots -/

@[simp] theorem mapSlots_pools (f : Slot → Slot) : (s.mapSlots f).pools = s.pools := by rw [mapSlots]
@[simp] theorem mapSlots_queue (f : Slot → Slot) : (s.mapSlots f).queue = s.queue := by rw [mapSlots]
@[simp] theorem mapSlots_masters (f : Slot → Slot) : (s.mapSlots f).masters = s.masters := by rw [mapSlots]
@[simp] theorem mapSlots_time (f : Slot → Slot) : (s.mapSlots f).time = s.time := by rw [mapSlots]
@[simp] theorem mapSlots_ticks (f : Slot → Slot) : (s.mapSlots f).ticks = s.ticks := by rw [mapSlots]
@[simp] theorem mapSlots_scrub (f : Slot → Slot) : (s.mapSlots f).scrub = s.scrub := by rw [mapSlots]
@[simp] theorem mapSlots_window (f : Slot → Slot) : (s.mapSlots f).window = s.window := by rw [mapSlots]
@[simp] theorem mapSlots_supmid (f : Slot → Slot) : (s.mapSlots f).supmid = s.supmid := by rw [mapSlots]
@[simp] theorem mapSlots_wseg (f : Slot → Slot) : (s.mapSlots f).wseg = s.wseg := by rw [mapSlots]
@[simp] theorem mapSlots_cause (f : Slot → Slot) : (s.mapSlots f).cause = s.cause := by rw [mapSlots]
@[simp] theorem mapSlots_inReset (f : Slot → Slot) : (s.mapSlots f).inReset = s.inReset := by rw [mapSlots]
@[simp] theorem mapSlots_bus (f : Slot → Slot) : (s.mapSlots f).bus = s.bus := by rw [mapSlots]
@[simp] theorem mapSlots_held (f : Slot → Slot) : (s.mapSlots f).held = s.held := by rw [mapSlots]
@[simp] theorem mapSlots_pending (f : Slot → Slot) : (s.mapSlots f).pending = s.pending := by rw [mapSlots]

/-! ### mapMasters -/

@[simp] theorem mapMasters_pools (f : Mid → Master → Master) : (s.mapMasters f).pools = s.pools := rfl
@[simp] theorem mapMasters_slots (f : Mid → Master → Master) : (s.mapMasters f).slots = s.slots := rfl
@[simp] theorem mapMasters_queue (f : Mid → Master → Master) : (s.mapMasters f).queue = s.queue := rfl
@[simp] theorem mapMasters_time (f : Mid → Master → Master) : (s.mapMasters f).time = s.time := rfl
@[simp] theorem mapMasters_ticks (f : Mid → Master → Master) : (s.mapMasters f).ticks = s.ticks := rfl
@[simp] theorem mapMasters_scrub (f : Mid → Master → Master) : (s.mapMasters f).scrub = s.scrub := rfl
@[simp] theorem mapMasters_window (f : Mid → Master → Master) : (s.mapMasters f).window = s.window := rfl
@[simp] theorem mapMasters_supmid (f : Mid → Master → Master) : (s.mapMasters f).supmid = s.supmid := rfl
@[simp] theorem mapMasters_wseg (f : Mid → Master → Master) : (s.mapMasters f).wseg = s.wseg := rfl
@[simp] theorem mapMasters_cause (f : Mid → Master → Master) : (s.mapMasters f).cause = s.cause := rfl
@[simp] theorem mapMasters_inReset (f : Mid → Master → Master) : (s.mapMasters f).inReset = s.inReset := rfl
@[simp] theorem mapMasters_bus (f : Mid → Master → Master) : (s.mapMasters f).bus = s.bus := rfl
@[simp] theorem mapMasters_held (f : Mid → Master → Master) : (s.mapMasters f).held = s.held := rfl
@[simp] theorem mapMasters_pending (f : Mid → Master → Master) : (s.mapMasters f).pending = s.pending := rfl

/-! ### mapWins -/

@[simp] theorem mapWins_pools (f : WindowSlot → WindowSlot) : (s.mapWins f).pools = s.pools := rfl
@[simp] theorem mapWins_slots (f : WindowSlot → WindowSlot) : (s.mapWins f).slots = s.slots := rfl
@[simp] theorem mapWins_queue (f : WindowSlot → WindowSlot) : (s.mapWins f).queue = s.queue := rfl
@[simp] theorem mapWins_masters (f : WindowSlot → WindowSlot) : (s.mapWins f).masters = s.masters := rfl
@[simp] theorem mapWins_time (f : WindowSlot → WindowSlot) : (s.mapWins f).time = s.time := rfl
@[simp] theorem mapWins_ticks (f : WindowSlot → WindowSlot) : (s.mapWins f).ticks = s.ticks := rfl
@[simp] theorem mapWins_scrub (f : WindowSlot → WindowSlot) : (s.mapWins f).scrub = s.scrub := rfl
@[simp] theorem mapWins_supmid (f : WindowSlot → WindowSlot) : (s.mapWins f).supmid = s.supmid := rfl
@[simp] theorem mapWins_wseg (f : WindowSlot → WindowSlot) : (s.mapWins f).wseg = s.wseg := rfl
@[simp] theorem mapWins_cause (f : WindowSlot → WindowSlot) : (s.mapWins f).cause = s.cause := rfl
@[simp] theorem mapWins_inReset (f : WindowSlot → WindowSlot) : (s.mapWins f).inReset = s.inReset := rfl
@[simp] theorem mapWins_bus (f : WindowSlot → WindowSlot) : (s.mapWins f).bus = s.bus := rfl
@[simp] theorem mapWins_held (f : WindowSlot → WindowSlot) : (s.mapWins f).held = s.held := rfl
@[simp] theorem mapWins_pending (f : WindowSlot → WindowSlot) : (s.mapWins f).pending = s.pending := rfl

/-! ### raiseHeld -/

@[simp] theorem raiseHeld_pools (m : Mid) : (s.raiseHeld m).pools = s.pools := rfl
@[simp] theorem raiseHeld_slots (m : Mid) : (s.raiseHeld m).slots = s.slots := rfl
@[simp] theorem raiseHeld_queue (m : Mid) : (s.raiseHeld m).queue = s.queue := rfl
@[simp] theorem raiseHeld_time (m : Mid) : (s.raiseHeld m).time = s.time := rfl
@[simp] theorem raiseHeld_ticks (m : Mid) : (s.raiseHeld m).ticks = s.ticks := rfl
@[simp] theorem raiseHeld_scrub (m : Mid) : (s.raiseHeld m).scrub = s.scrub := rfl
@[simp] theorem raiseHeld_window (m : Mid) : (s.raiseHeld m).window = s.window := rfl
@[simp] theorem raiseHeld_supmid (m : Mid) : (s.raiseHeld m).supmid = s.supmid := rfl
@[simp] theorem raiseHeld_wseg (m : Mid) : (s.raiseHeld m).wseg = s.wseg := rfl
@[simp] theorem raiseHeld_cause (m : Mid) : (s.raiseHeld m).cause = s.cause := rfl
@[simp] theorem raiseHeld_inReset (m : Mid) : (s.raiseHeld m).inReset = s.inReset := rfl
@[simp] theorem raiseHeld_bus (m : Mid) : (s.raiseHeld m).bus = s.bus := rfl
@[simp] theorem raiseHeld_held (m : Mid) : (s.raiseHeld m).held = s.held := rfl
@[simp] theorem raiseHeld_pending (m : Mid) : (s.raiseHeld m).pending = s.pending := rfl

/-! ### lowerHeld -/

@[simp] theorem lowerHeld_pools (m : Mid) : (s.lowerHeld m).pools = s.pools := rfl
@[simp] theorem lowerHeld_slots (m : Mid) : (s.lowerHeld m).slots = s.slots := rfl
@[simp] theorem lowerHeld_queue (m : Mid) : (s.lowerHeld m).queue = s.queue := rfl
@[simp] theorem lowerHeld_time (m : Mid) : (s.lowerHeld m).time = s.time := rfl
@[simp] theorem lowerHeld_ticks (m : Mid) : (s.lowerHeld m).ticks = s.ticks := rfl
@[simp] theorem lowerHeld_scrub (m : Mid) : (s.lowerHeld m).scrub = s.scrub := rfl
@[simp] theorem lowerHeld_window (m : Mid) : (s.lowerHeld m).window = s.window := rfl
@[simp] theorem lowerHeld_supmid (m : Mid) : (s.lowerHeld m).supmid = s.supmid := rfl
@[simp] theorem lowerHeld_wseg (m : Mid) : (s.lowerHeld m).wseg = s.wseg := rfl
@[simp] theorem lowerHeld_cause (m : Mid) : (s.lowerHeld m).cause = s.cause := rfl
@[simp] theorem lowerHeld_inReset (m : Mid) : (s.lowerHeld m).inReset = s.inReset := rfl
@[simp] theorem lowerHeld_bus (m : Mid) : (s.lowerHeld m).bus = s.bus := rfl
@[simp] theorem lowerHeld_held (m : Mid) : (s.lowerHeld m).held = s.held := rfl
@[simp] theorem lowerHeld_pending (m : Mid) : (s.lowerHeld m).pending = s.pending := rfl

/-! ### raiseWaiting -/

@[simp] theorem raiseWaiting_pools (m : Mid) : (s.raiseWaiting m).pools = s.pools := rfl
@[simp] theorem raiseWaiting_slots (m : Mid) : (s.raiseWaiting m).slots = s.slots := rfl
@[simp] theorem raiseWaiting_queue (m : Mid) : (s.raiseWaiting m).queue = s.queue := rfl
@[simp] theorem raiseWaiting_time (m : Mid) : (s.raiseWaiting m).time = s.time := rfl
@[simp] theorem raiseWaiting_ticks (m : Mid) : (s.raiseWaiting m).ticks = s.ticks := rfl
@[simp] theorem raiseWaiting_scrub (m : Mid) : (s.raiseWaiting m).scrub = s.scrub := rfl
@[simp] theorem raiseWaiting_window (m : Mid) : (s.raiseWaiting m).window = s.window := rfl
@[simp] theorem raiseWaiting_supmid (m : Mid) : (s.raiseWaiting m).supmid = s.supmid := rfl
@[simp] theorem raiseWaiting_wseg (m : Mid) : (s.raiseWaiting m).wseg = s.wseg := rfl
@[simp] theorem raiseWaiting_cause (m : Mid) : (s.raiseWaiting m).cause = s.cause := rfl
@[simp] theorem raiseWaiting_inReset (m : Mid) : (s.raiseWaiting m).inReset = s.inReset := rfl
@[simp] theorem raiseWaiting_bus (m : Mid) : (s.raiseWaiting m).bus = s.bus := rfl
@[simp] theorem raiseWaiting_held (m : Mid) : (s.raiseWaiting m).held = s.held := rfl
@[simp] theorem raiseWaiting_pending (m : Mid) : (s.raiseWaiting m).pending = s.pending := rfl

/-! ### lowerWaiting -/

@[simp] theorem lowerWaiting_pools (m : Mid) : (s.lowerWaiting m).pools = s.pools := rfl
@[simp] theorem lowerWaiting_slots (m : Mid) : (s.lowerWaiting m).slots = s.slots := rfl
@[simp] theorem lowerWaiting_queue (m : Mid) : (s.lowerWaiting m).queue = s.queue := rfl
@[simp] theorem lowerWaiting_time (m : Mid) : (s.lowerWaiting m).time = s.time := rfl
@[simp] theorem lowerWaiting_ticks (m : Mid) : (s.lowerWaiting m).ticks = s.ticks := rfl
@[simp] theorem lowerWaiting_scrub (m : Mid) : (s.lowerWaiting m).scrub = s.scrub := rfl
@[simp] theorem lowerWaiting_window (m : Mid) : (s.lowerWaiting m).window = s.window := rfl
@[simp] theorem lowerWaiting_supmid (m : Mid) : (s.lowerWaiting m).supmid = s.supmid := rfl
@[simp] theorem lowerWaiting_wseg (m : Mid) : (s.lowerWaiting m).wseg = s.wseg := rfl
@[simp] theorem lowerWaiting_cause (m : Mid) : (s.lowerWaiting m).cause = s.cause := rfl
@[simp] theorem lowerWaiting_inReset (m : Mid) : (s.lowerWaiting m).inReset = s.inReset := rfl
@[simp] theorem lowerWaiting_bus (m : Mid) : (s.lowerWaiting m).bus = s.bus := rfl
@[simp] theorem lowerWaiting_held (m : Mid) : (s.lowerWaiting m).held = s.held := rfl
@[simp] theorem lowerWaiting_pending (m : Mid) : (s.lowerWaiting m).pending = s.pending := rfl

/-! ### The records under updates of other parts -/

@[simp] theorem slot_setPool (p : PoolIx) (x : Pool) (k' : SlotIx) : (s.setPool p x).slot k' = s.slot k' := rfl
@[simp] theorem lease_setPool (p : PoolIx) (x : Pool) (k' : SlotIx) : (s.setPool p x).lease k' = s.lease k' := rfl
@[simp] theorem master_setPool (p : PoolIx) (x : Pool) (m' : Mid) : (s.setPool p x).master m' = s.master m' := rfl
@[simp] theorem win_setPool (p : PoolIx) (x : Pool) (m' : Mid) : (s.setPool p x).win m' = s.win m' := rfl
@[simp] theorem pool_setSlot (k : SlotIx) (x : Slot) (p' : PoolIx) : (s.setSlot k x).pool p' = s.pool p' := rfl
@[simp] theorem master_setSlot (k : SlotIx) (x : Slot) (m' : Mid) : (s.setSlot k x).master m' = s.master m' := rfl
@[simp] theorem win_setSlot (k : SlotIx) (x : Slot) (m' : Mid) : (s.setSlot k x).win m' = s.win m' := rfl
@[simp] theorem pool_setMaster (m : Mid) (x : Master) (p' : PoolIx) : (s.setMaster m x).pool p' = s.pool p' := rfl
@[simp] theorem slot_setMaster (m : Mid) (x : Master) (k' : SlotIx) : (s.setMaster m x).slot k' = s.slot k' := rfl
@[simp] theorem lease_setMaster (m : Mid) (x : Master) (k' : SlotIx) : (s.setMaster m x).lease k' = s.lease k' := rfl
@[simp] theorem win_setMaster (m : Mid) (x : Master) (m' : Mid) : (s.setMaster m x).win m' = s.win m' := rfl
@[simp] theorem pool_setWin (m : Mid) (x : WindowSlot) (p' : PoolIx) : (s.setWin m x).pool p' = s.pool p' := rfl
@[simp] theorem slot_setWin (m : Mid) (x : WindowSlot) (k' : SlotIx) : (s.setWin m x).slot k' = s.slot k' := rfl
@[simp] theorem lease_setWin (m : Mid) (x : WindowSlot) (k' : SlotIx) : (s.setWin m x).lease k' = s.lease k' := rfl
@[simp] theorem master_setWin (m : Mid) (x : WindowSlot) (m' : Mid) : (s.setWin m x).master m' = s.master m' := rfl
@[simp] theorem pool_setQueue (q : List ClaimEntry) (p' : PoolIx) : (s.setQueue q).pool p' = s.pool p' := rfl
@[simp] theorem slot_setQueue (q : List ClaimEntry) (k' : SlotIx) : (s.setQueue q).slot k' = s.slot k' := rfl
@[simp] theorem lease_setQueue (q : List ClaimEntry) (k' : SlotIx) : (s.setQueue q).lease k' = s.lease k' := rfl
@[simp] theorem master_setQueue (q : List ClaimEntry) (m' : Mid) : (s.setQueue q).master m' = s.master m' := rfl
@[simp] theorem win_setQueue (q : List ClaimEntry) (m' : Mid) : (s.setQueue q).win m' = s.win m' := rfl
@[simp] theorem pool_setTime (t : TimeBase) (p' : PoolIx) : (s.setTime t).pool p' = s.pool p' := rfl
@[simp] theorem slot_setTime (t : TimeBase) (k' : SlotIx) : (s.setTime t).slot k' = s.slot k' := rfl
@[simp] theorem lease_setTime (t : TimeBase) (k' : SlotIx) : (s.setTime t).lease k' = s.lease k' := rfl
@[simp] theorem master_setTime (t : TimeBase) (m' : Mid) : (s.setTime t).master m' = s.master m' := rfl
@[simp] theorem win_setTime (t : TimeBase) (m' : Mid) : (s.setTime t).win m' = s.win m' := rfl
@[simp] theorem pool_setTicks (t : Ticks) (p' : PoolIx) : (s.setTicks t).pool p' = s.pool p' := rfl
@[simp] theorem slot_setTicks (t : Ticks) (k' : SlotIx) : (s.setTicks t).slot k' = s.slot k' := rfl
@[simp] theorem lease_setTicks (t : Ticks) (k' : SlotIx) : (s.setTicks t).lease k' = s.lease k' := rfl
@[simp] theorem master_setTicks (t : Ticks) (m' : Mid) : (s.setTicks t).master m' = s.master m' := rfl
@[simp] theorem win_setTicks (t : Ticks) (m' : Mid) : (s.setTicks t).win m' = s.win m' := rfl
@[simp] theorem pool_setScrub (e : ScrubEngine) (p' : PoolIx) : (s.setScrub e).pool p' = s.pool p' := rfl
@[simp] theorem slot_setScrub (e : ScrubEngine) (k' : SlotIx) : (s.setScrub e).slot k' = s.slot k' := rfl
@[simp] theorem lease_setScrub (e : ScrubEngine) (k' : SlotIx) : (s.setScrub e).lease k' = s.lease k' := rfl
@[simp] theorem master_setScrub (e : ScrubEngine) (m' : Mid) : (s.setScrub e).master m' = s.master m' := rfl
@[simp] theorem win_setScrub (e : ScrubEngine) (m' : Mid) : (s.setScrub e).win m' = s.win m' := rfl
@[simp] theorem pool_setBus (b : BusResponse) (p' : PoolIx) : (s.setBus b).pool p' = s.pool p' := rfl
@[simp] theorem pool_setHeld (q : List Transaction) (p' : PoolIx) : (s.setHeld q).pool p' = s.pool p' := rfl
@[simp] theorem slot_setBus (b : BusResponse) (k' : SlotIx) : (s.setBus b).slot k' = s.slot k' := rfl
@[simp] theorem slot_setHeld (q : List Transaction) (k' : SlotIx) : (s.setHeld q).slot k' = s.slot k' := rfl
@[simp] theorem lease_setBus (b : BusResponse) (k' : SlotIx) : (s.setBus b).lease k' = s.lease k' := rfl
@[simp] theorem lease_setHeld (q : List Transaction) (k' : SlotIx) : (s.setHeld q).lease k' = s.lease k' := rfl
@[simp] theorem master_setBus (b : BusResponse) (m' : Mid) : (s.setBus b).master m' = s.master m' := rfl
@[simp] theorem master_setHeld (q : List Transaction) (m' : Mid) : (s.setHeld q).master m' = s.master m' := rfl
@[simp] theorem win_setBus (b : BusResponse) (m' : Mid) : (s.setBus b).win m' = s.win m' := rfl
@[simp] theorem win_setHeld (q : List Transaction) (m' : Mid) : (s.setHeld q).win m' = s.win m' := rfl
@[simp] theorem pool_setPending (q : List Instr) (p' : PoolIx) : (s.setPending q).pool p' = s.pool p' := rfl
@[simp] theorem slot_setPending (q : List Instr) (k' : SlotIx) : (s.setPending q).slot k' = s.slot k' := rfl
@[simp] theorem lease_setPending (q : List Instr) (k' : SlotIx) : (s.setPending q).lease k' = s.lease k' := rfl
@[simp] theorem master_setPending (q : List Instr) (m' : Mid) : (s.setPending q).master m' = s.master m' := rfl
@[simp] theorem win_setPending (q : List Instr) (m' : Mid) : (s.setPending q).win m' = s.win m' := rfl
@[simp] theorem pool_setLease (k : SlotIx) (l : Lease) (p' : PoolIx) : (s.setLease k l).pool p' = s.pool p' := rfl
@[simp] theorem master_setLease (k : SlotIx) (l : Lease) (m' : Mid) : (s.setLease k l).master m' = s.master m' := rfl
@[simp] theorem win_setLease (k : SlotIx) (l : Lease) (m' : Mid) : (s.setLease k l).win m' = s.win m' := rfl
@[simp] theorem pool_mapSlots (f : Slot → Slot) (p' : PoolIx) : (s.mapSlots f).pool p' = s.pool p' := by rw [pool, mapSlots_pools, pool]
@[simp] theorem master_mapSlots (f : Slot → Slot) (m' : Mid) : (s.mapSlots f).master m' = s.master m' := by rw [master, mapSlots_masters, master]
@[simp] theorem win_mapSlots (f : Slot → Slot) (m' : Mid) : (s.mapSlots f).win m' = s.win m' := by rw [win, mapSlots_window, win]
@[simp] theorem pool_mapMasters (f : Mid → Master → Master) (p' : PoolIx) : (s.mapMasters f).pool p' = s.pool p' := rfl
@[simp] theorem slot_mapMasters (f : Mid → Master → Master) (k' : SlotIx) : (s.mapMasters f).slot k' = s.slot k' := rfl
@[simp] theorem lease_mapMasters (f : Mid → Master → Master) (k' : SlotIx) : (s.mapMasters f).lease k' = s.lease k' := rfl
@[simp] theorem win_mapMasters (f : Mid → Master → Master) (m' : Mid) : (s.mapMasters f).win m' = s.win m' := rfl
@[simp] theorem pool_mapWins (f : WindowSlot → WindowSlot) (p' : PoolIx) : (s.mapWins f).pool p' = s.pool p' := rfl
@[simp] theorem slot_mapWins (f : WindowSlot → WindowSlot) (k' : SlotIx) : (s.mapWins f).slot k' = s.slot k' := rfl
@[simp] theorem lease_mapWins (f : WindowSlot → WindowSlot) (k' : SlotIx) : (s.mapWins f).lease k' = s.lease k' := rfl
@[simp] theorem master_mapWins (f : WindowSlot → WindowSlot) (m' : Mid) : (s.mapWins f).master m' = s.master m' := rfl
@[simp] theorem pool_raiseHeld (m : Mid) (p' : PoolIx) : (s.raiseHeld m).pool p' = s.pool p' := rfl
@[simp] theorem slot_raiseHeld (m : Mid) (k' : SlotIx) : (s.raiseHeld m).slot k' = s.slot k' := rfl
@[simp] theorem lease_raiseHeld (m : Mid) (k' : SlotIx) : (s.raiseHeld m).lease k' = s.lease k' := rfl
@[simp] theorem win_raiseHeld (m : Mid) (m' : Mid) : (s.raiseHeld m).win m' = s.win m' := rfl
@[simp] theorem pool_lowerHeld (m : Mid) (p' : PoolIx) : (s.lowerHeld m).pool p' = s.pool p' := rfl
@[simp] theorem slot_lowerHeld (m : Mid) (k' : SlotIx) : (s.lowerHeld m).slot k' = s.slot k' := rfl
@[simp] theorem lease_lowerHeld (m : Mid) (k' : SlotIx) : (s.lowerHeld m).lease k' = s.lease k' := rfl
@[simp] theorem win_lowerHeld (m : Mid) (m' : Mid) : (s.lowerHeld m).win m' = s.win m' := rfl
@[simp] theorem pool_raiseWaiting (m : Mid) (p' : PoolIx) : (s.raiseWaiting m).pool p' = s.pool p' := rfl
@[simp] theorem slot_raiseWaiting (m : Mid) (k' : SlotIx) : (s.raiseWaiting m).slot k' = s.slot k' := rfl
@[simp] theorem lease_raiseWaiting (m : Mid) (k' : SlotIx) : (s.raiseWaiting m).lease k' = s.lease k' := rfl
@[simp] theorem win_raiseWaiting (m : Mid) (m' : Mid) : (s.raiseWaiting m).win m' = s.win m' := rfl
@[simp] theorem pool_lowerWaiting (m : Mid) (p' : PoolIx) : (s.lowerWaiting m).pool p' = s.pool p' := rfl
@[simp] theorem slot_lowerWaiting (m : Mid) (k' : SlotIx) : (s.lowerWaiting m).slot k' = s.slot k' := rfl
@[simp] theorem lease_lowerWaiting (m : Mid) (k' : SlotIx) : (s.lowerWaiting m).lease k' = s.lease k' := rfl
@[simp] theorem win_lowerWaiting (m : Mid) (m' : Mid) : (s.lowerWaiting m).win m' = s.win m' := rfl

/-! ### A record after it is replaced -/

@[simp] theorem pool_setPool (p p' : PoolIx) (x : Pool) :
    (s.setPool p x).pool p' = if p = p' then x else s.pool p' := by
  simp [pool, setPool, Vector.getElem_set, Fin.ext_iff]

@[simp] theorem slot_setSlot (k k' : SlotIx) (x : Slot) :
    (s.setSlot k x).slot k' = if k = k' then x else s.slot k' := by
  simp [slot, setSlot, Vector.getElem_set, Fin.ext_iff]

@[simp] theorem lease_setSlot (k k' : SlotIx) (x : Slot) :
    (s.setSlot k x).lease k' = if k = k' then x.lease else s.lease k' := by
  simp only [lease, slot_setSlot]; split <;> rfl

@[simp] theorem lease_setLease (k k' : SlotIx) (l : Lease) :
    (s.setLease k l).lease k' = if k = k' then some l else s.lease k' := by
  simp [setLease]

@[simp] theorem slot_setLease (k k' : SlotIx) (l : Lease) :
    (s.setLease k l).slot k' =
      { gen := (s.slot k').gen, lease := if k = k' then some l else s.lease k' } := by
  simp only [setLease, slot_setSlot, lease]; split <;> simp_all

@[simp] theorem master_setMaster (m m' : Mid) (x : Master) :
    (s.setMaster m x).master m' = if m = m' then x else s.master m' := by
  simp [master, setMaster, Vector.getElem_set, Fin.ext_iff]

@[simp] theorem win_setWin (m m' : Mid) (x : WindowSlot) :
    (s.setWin m x).win m' = if m = m' then x else s.win m' := by
  simp [win, setWin, Vector.getElem_set, Fin.ext_iff]

@[simp] theorem slot_mapSlots (f : Slot → Slot) (k : SlotIx) : (s.mapSlots f).slot k = f (s.slot k) := by
  simp [slot, mapSlots]

@[simp] theorem lease_mapSlots (f : Slot → Slot) (k : SlotIx) : (s.mapSlots f).lease k = (f (s.slot k)).lease := by
  simp [lease]

@[simp] theorem master_mapMasters (f : Mid → Master → Master) (m : Mid) :
    (s.mapMasters f).master m = f m (s.master m) := by
  simp [master, mapMasters]

@[simp] theorem win_mapWins (f : WindowSlot → WindowSlot) (m : Mid) : (s.mapWins f).win m = f (s.win m) := by
  simp [win, mapWins]

@[simp] theorem master_raiseHeld (m m' : Mid) :
    (s.raiseHeld m).master m' = if m = m' then { s.master m with held := (s.master m).held + 1 } else s.master m' := by
  simp [raiseHeld]

@[simp] theorem master_lowerHeld (m m' : Mid) :
    (s.lowerHeld m).master m' = if m = m' then { s.master m with held := (s.master m).held - 1 } else s.master m' := by
  simp [lowerHeld]

@[simp] theorem master_raiseWaiting (m m' : Mid) :
    (s.raiseWaiting m).master m' = if m = m' then { s.master m with waiting := (s.master m).waiting + 1 } else s.master m' := by
  simp [raiseWaiting]

@[simp] theorem master_lowerWaiting (m m' : Mid) :
    (s.lowerWaiting m).master m' = if m = m' then { s.master m with waiting := (s.master m).waiting - 1 } else s.master m' := by
  simp [lowerWaiting]

/-! ### A value written where it already stands -/

/-- Two states with the same records and fields are the same. -/
theorem ext_records {s t : State} (pools : ∀ p, s.pool p = t.pool p) (slots : ∀ k, s.slot k = t.slot k)
    (queue : s.queue = t.queue) (masters : ∀ m, s.master m = t.master m) (time : s.time = t.time)
    (ticks : s.ticks = t.ticks) (scrub : s.scrub = t.scrub) (window : ∀ m, s.win m = t.win m)
    (supmid : s.supmid = t.supmid) (wseg : s.wseg = t.wseg) (cause : s.cause = t.cause)
    (inReset : s.inReset = t.inReset) (bus : s.bus = t.bus) (held : s.held = t.held)
    (pending : s.pending = t.pending) : s = t := by
  cases s; cases t
  simp only [mk.injEq]
  refine ⟨?_, ?_, queue, ?_, time, ticks, scrub, ?_, supmid, wseg, cause, inReset, bus, held, pending⟩
  · exact Vector.ext fun i h => pools ⟨i, h⟩
  · exact Vector.ext fun i h => slots ⟨i, h⟩
  · exact Vector.ext fun i h => masters ⟨i, h⟩
  · exact Vector.ext fun i h => window ⟨i, h⟩

end Sys2Proof.Machine.State
end

