-- ==== Sys2Proof/Laws/Ops.lean ====
section
/-! SUPPORT. What each shared operation can do, said once: which records it touches and what they hold afterwards. -/

namespace Sys2Proof.Machine

/-! ### Handles (R21) -/

/-- The low part of three joined bit strings. -/
theorem low_of_three (g : BitVec 8) (z : BitVec 3) (v : BitVec 5) : (g ++ (z ++ v)).extractLsb' 0 5 = v := by
  apply BitVec.eq_of_getLsbD_eq
  intro i hi
  simp only [BitVec.getLsbD_extractLsb', BitVec.getLsbD_append]
  interval_cases i <;> simp

/-- The middle part of three joined bit strings. -/
theorem middle_of_three (g : BitVec 8) (z : BitVec 3) (v : BitVec 5) : (g ++ (z ++ v)).extractLsb' 5 3 = z := by
  apply BitVec.eq_of_getLsbD_eq
  intro i hi
  simp only [BitVec.getLsbD_extractLsb', BitVec.getLsbD_append]
  interval_cases i <;> simp

/-- The high part of three joined bit strings. -/
theorem high_of_three (g : BitVec 8) (z : BitVec 3) (v : BitVec 5) : (g ++ (z ++ v)).extractLsb' 8 8 = g := by
  apply BitVec.eq_of_getLsbD_eq
  intro i hi
  simp only [BitVec.getLsbD_extractLsb', BitVec.getLsbD_append]
  interval_cases i <;> simp

@[simp] theorem Handle.slot_handleOf (g : BitVec 8) (k : SlotIx) : Handle.slot (handleOf g k) = k := by
  have low : BitVec.extractLsb' 0 5 (handleOf g k) = BitVec.ofNat 5 k.val := low_of_three g 0 _
  ext
  simp only [Handle.slot, low, BitVec.toNat_ofNat, Fin.ofNat]
  omega

@[simp] theorem Handle.gen_handleOf (g : BitVec 8) (k : SlotIx) : Handle.gen (handleOf g k) = g :=
  high_of_three g 0 _

@[simp] theorem Handle.middle_handleOf (g : BitVec 8) (k : SlotIx) : Handle.middle (handleOf g k) = 0 :=
  middle_of_three g 0 _

/-- A handle with zero in bits 7:5 is the handle of its slot at its generation. -/
theorem handleOf_parts {h : Handle} (z : Handle.middle h = 0) : handleOf (Handle.gen h) (Handle.slot h) = h := by
  have e : BitVec.ofNat 5 (Handle.slot h).val = BitVec.extractLsb' 0 5 h := by
    apply BitVec.eq_of_toNat_eq
    simp [Handle.slot]
  simp only [handleOf, e, Handle.gen]
  ext i hi
  have zi := congrArg (fun v : BitVec 3 => v.getLsbD (i - 5)) z
  simp only [Handle.middle, BitVec.getLsbD_extractLsb'] at zi
  simp only [BitVec.getElem_append, BitVec.getElem_extractLsb']
  split
  · rename_i h8
    split
    · simp [BitVec.getLsbD_eq_getElem, hi]
    · rename_i h5
      have h3 : i - 5 < 3 := by omega
      have e5 : 5 + (i - 5) = i := by omega
      simp [h3, e5, BitVec.getLsbD_eq_getElem, hi] at zi
      simpa using zi.symm
  · have e8 : 8 + (i - 8) = i := by omega
    simp [e8, BitVec.getLsbD_eq_getElem, hi]

namespace State

variable (s : State)

/-- The handle check of R22 finds a lease exactly when the handle is the one the slot has now and the slot is not
FREE. -/
theorem lookup_eq_some {h : Handle} {k : SlotIx} {l : Lease} :
    s.lookup h = some (k, l) ↔ h = s.handle k ∧ s.lease k = some l := by
  constructor
  · intro e
    simp only [lookup] at e
    split at e
    · rename_i c
      obtain ⟨c0, c1⟩ := c
      simp only [Option.map_eq_some_iff, Prod.mk.injEq] at e
      obtain ⟨l', el, rfl, rfl⟩ := e
      exact ⟨by rw [handle, ← c1, handleOf_parts c0], el⟩
    · cases e
  · rintro ⟨rfl, e⟩
    simp [lookup, handle, e]

@[simp] theorem handle_setLease (k k' : SlotIx) (l : Lease) : (s.setLease k l).handle k' = s.handle k' := by
  simp [handle]

/-! ### Notices (R33) -/

/-- Raising a notice touches the slots alone. -/
theorem notify_frame (k : SlotIx) (n : NoticeKind) (m : Mid) :
    s.notify k n m = { s with slots := (s.notify k n m).slots } := by
  simp only [notify]; split
  · split <;> rfl
  · rfl

/-- Every lease after a notice is raised: only the set of slot `k` can differ, and only at `m`. -/
theorem lease_notify (k k' : SlotIx) (n : NoticeKind) (m : Mid) :
    (s.notify k n m).lease k' =
      if k = k' ∧ s.attached m then
        (s.lease k).map fun l => { l with notices := l.notices.set m (some n) }
      else s.lease k' := by
  simp only [notify]
  by_cases a : s.attached m <;> by_cases e : k = k'
  · subst e; simp only [a]; cases h : s.lease k <;> simp [h]
  · simp only [a, e]; cases h : s.lease k <;> simp [e]
  · simp [a]
  · simp [a]

/-- Raising a notice changes no generation. -/
@[simp] theorem gen_notify (k k' : SlotIx) (n : NoticeKind) (m : Mid) :
    ((s.notify k n m).slot k').gen = (s.slot k').gen := by
  simp only [notify]; split
  · split <;> simp
  · rfl

/-- Raising notices for several masters touches the slots alone. -/
theorem notifyAll_frame (k : SlotIx) (n : NoticeKind) (ms : List Mid) :
    s.notifyAll k n ms = { s with slots := (s.notifyAll k n ms).slots } := by
  induction ms generalizing s with
  | nil => rfl
  | cons m ms ih =>
    have e : s.notifyAll k n (m :: ms) = (s.notify k n m).notifyAll k n ms := rfl
    rw [e, ih, notify_frame]

@[simp] theorem notifyAll_nil (k : SlotIx) (n : NoticeKind) : s.notifyAll k n [] = s := rfl

@[simp] theorem notifyAll_cons (k : SlotIx) (n : NoticeKind) (m : Mid) (ms : List Mid) :
    s.notifyAll k n (m :: ms) = (s.notify k n m).notifyAll k n ms := rfl

/-- Removing a notice touches the slots alone. -/
theorem dropNotice_frame (k : SlotIx) (m : Mid) :
    s.dropNotice k m = { s with slots := (s.dropNotice k m).slots } := by
  simp only [dropNotice]; split <;> rfl

/-- Every lease after a notice is removed. -/
theorem lease_dropNotice (k k' : SlotIx) (m : Mid) :
    (s.dropNotice k m).lease k' =
      if k = k' then (s.lease k).map fun l => { l with notices := l.notices.set m none } else s.lease k' := by
  simp only [dropNotice]
  by_cases e : k = k'
  · subst e; cases h : s.lease k <;> simp [h]
  · cases h : s.lease k <;> simp [e]

/-- Moving notices to orphan fields (R34) touches the master records alone, each in its orphan field alone. -/
@[simp] theorem master_moveToOrphans (h : Handle) (ns : NoticeSet) (m : Mid) :
    (s.moveToOrphans h ns).master m =
      match ns[m] with
      | none => s.master m
      | some n => { s.master m with orphan := some { handle := h, kind := n } } := by
  refine (master_mapMasters ..).trans ?_
  cases ns[m] <;> rfl

/-- Moving notices to orphan fields leaves everything but the masters. -/
theorem moveToOrphans_frame (h : Handle) (ns : NoticeSet) :
    s.moveToOrphans h ns = { s with masters := (s.moveToOrphans h ns).masters } := rfl

/-! ### Entering FREE and TAINTED (R19, R20) -/

/-- Lowering the held counts of several masters touches the master records alone. -/
theorem foldl_lowerHeld_frame (ms : List Mid) :
    ms.foldl lowerHeld s = { s with masters := (ms.foldl lowerHeld s).masters } := by
  induction ms generalizing s with
  | nil => rfl
  | cons m ms ih =>
    rw [List.foldl_cons, ih (s.lowerHeld m)]
    rfl

/-- Freeing a slot touches that slot and the master records alone. -/
theorem freeSlot_frame (k : SlotIx) :
    s.freeSlot k = { s with slots := (s.freeSlot k).slots, masters := (s.freeSlot k).masters } := by
  simp only [freeSlot]; split
  · rfl
  · rw [foldl_lowerHeld_frame]; rfl

/-- A freed slot keeps its generation and has no lease; every other slot is as it was. -/
theorem slot_freeSlot (k k' : SlotIx) :
    (s.freeSlot k).slot k' =
      { gen := (s.slot k').gen, lease := if k = k' then none else s.lease k' } := by
  have lower : ∀ (ms : List Mid) (t : State), (ms.foldl lowerHeld t).slot k' = t.slot k' := by
    intro ms
    induction ms with
    | nil => intro t; rfl
    | cons m ms ih => intro t; rw [List.foldl_cons, ih]; rfl
  simp only [freeSlot]
  cases h : s.lease k with
  | none =>
    by_cases e : k = k'
    · subst e; simp [← h, lease]
    · simp [e, lease]
  | some l =>
    simp only [lower, slot_setSlot]
    by_cases e : k = k'
    · subst e; simp only [if_true]; rfl
    · simp only [e, if_false]; rfl

@[simp] theorem lease_freeSlot (k k' : SlotIx) :
    (s.freeSlot k).lease k' = if k = k' then none else s.lease k' := by
  simp only [lease, slot_freeSlot]

/-- Tainting touches that slot and the former owner's record alone. -/
theorem taintSlot_frame (k : SlotIx) :
    s.taintSlot k = { s with slots := (s.taintSlot k).slots, masters := (s.taintSlot k).masters } := by
  simp only [taintSlot]; split
  · rfl
  · split <;> rfl

/-- What tainting does to a lease EXCLUSIVE in HELD or GRACE: only its hold changes, and its owner's held count falls by
one. -/
theorem taintSlot_of_owner {k : SlotIx} {l : Lease} {o : Mid} (h : s.lease k = some l)
    (ho : l.hold.owner? = some o) :
    s.taintSlot k = (s.setLease k { l with hold := l.hold.taint }).lowerHeld o := by
  simp [taintSlot, h, ho]

/-- Ending a membership touches that slot and the master records alone. -/
theorem endMembership_frame (k : SlotIx) (m : Mid) :
    s.endMembership k m =
      { s with slots := (s.endMembership k m).slots, masters := (s.endMembership k m).masters } := by
  simp only [endMembership]; split
  · rfl
  · split
    · split
      · rw [freeSlot_frame]; rfl
      · rfl
    · rfl

/-- Ending a membership touches no slot but its own. -/
theorem slot_endMembership_of_ne {k k' : SlotIx} (m : Mid) (e : k ≠ k') :
    (s.endMembership k m).slot k' = s.slot k' := by
  simp only [endMembership]; split
  · rfl
  · split
    · split
      · simp [slot_freeSlot, e, lease]
      · simp [e, lease]
    · rfl

/-! ### Lookups (2.4) -/

/-- What the search of the lease table finds: a lease that satisfies `f`, and none in a lower slot. -/
theorem findLease_eq_some {f : Lease → Bool} {k : SlotIx} :
    s.findLease f = some k ↔
      (∃ l, s.lease k = some l ∧ f l) ∧ ∀ j < k, ∀ l, s.lease j = some l → f l = false := by
  simp only [findLease, allSlots, List.finRange, List.find?_ofFn_eq_some, Option.any_eq_true]
  constructor
  · rintro ⟨i, j, rfl, low⟩
    refine ⟨i, fun j hj l e => ?_⟩
    simpa [e] using low j hj
  · rintro ⟨i, low⟩
    refine ⟨i, k, rfl, fun j hj => ?_⟩
    rintro ⟨l, e, fl⟩
    simp [low j hj l e] at fl

/-- The search finds nothing exactly when no lease satisfies `f`. -/
theorem findLease_eq_none {f : Lease → Bool} :
    s.findLease f = none ↔ ∀ k l, s.lease k = some l → f l = false := by
  simp only [findLease, allSlots, List.find?_eq_none, List.mem_finRange, true_imp_iff]
  constructor
  · intro h k l e; simpa [e] using h k
  · intro h k
    cases e : s.lease k with
    | none => simp
    | some l => simpa using h k l e

end State

end Sys2Proof.Machine
end

