-- ==== Sys2Proof/Laws/Window.lean ====
section
/-! SUPPORT. What taking a request can do, said once, and the words an answer is packed into. -/

namespace Sys2Proof.Machine

/-- Reading back a field just placed gives its low bits. -/
theorem field_place (v lo width : Nat) (h : lo + width ≤ 32) : field (place v lo width) lo width = v % 2 ^ width := by
  simp only [field, place, BitVec.extractLsb'_toNat, BitVec.toNat_ofNat, Nat.shiftRight_eq_div_pow]
  have b : v % 2 ^ width * 2 ^ lo < 2 ^ 32 := by
    calc v % 2 ^ width * 2 ^ lo < 2 ^ width * 2 ^ lo :=
          Nat.mul_lt_mul_of_pos_right (Nat.mod_lt _ (by positivity)) (by positivity)
      _ = 2 ^ (width + lo) := by rw [pow_add]
      _ ≤ 2 ^ 32 := Nat.pow_le_pow_right (by norm_num) (by omega)
  rw [Nat.mod_eq_of_lt b, Nat.mul_div_cancel _ (by positivity), Nat.mod_mod]

/-- Every request's code names it. -/
theorem Request.ofCode_code (r : Request) : Request.ofCode r.code = some r := by cases r <;> rfl

/-- The rule that a request's code runs is the request's own. -/
@[simp] theorem ruleOf_code (r : Request) : ruleOf r.code = r.rule := by simp [ruleOf, Request.ofCode_code]

namespace State

variable (s : State)

/-! ### Where the window lies (R165) -/

/-- The window is where R165 places it: the 256 bytes from W. -/
theorem windowOffset_eq_ite (a : Word) :
    s.windowOffset a =
      if s.windowBase ≤ a.toNat ∧ a.toNat < s.windowBase + 256 then some (BitVec.ofNat 8 (a.toNat - s.windowBase))
      else none := by
  have low : a.extractLsb' 0 8 = BitVec.ofNat 8 a.toNat := by
    apply BitVec.eq_of_toNat_eq; simp
  have high : (a.extractLsb' 8 24 = s.wseg ++ 0xFFFFF#20) ↔ a.toNat / 256 = s.wseg.toNat * 0x100000 + 0xFFFFF := by
    rw [← BitVec.toNat_inj, BitVec.toNat_append, Nat.shiftLeft_eq, Nat.mul_comm,
      ← Nat.two_pow_add_eq_or_of_lt (by decide), BitVec.extractLsb'_toNat, Nat.shiftRight_eq_div_pow,
      Nat.mod_eq_of_lt (by have := a.isLt; omega), Nat.mul_comm]
    exact Iff.rfl
  have part : a.toNat / 256 = s.wseg.toNat * 0x100000 + 0xFFFFF ↔
      s.windowBase ≤ a.toNat ∧ a.toNat < s.windowBase + 256 := by
    simp only [windowBase]; omega
  simp only [windowOffset, high, part, low]
  split
  · rename_i h
    refine congrArg some (BitVec.eq_of_toNat_eq ?_)
    have base : s.windowBase % 256 = 0 := by simp only [windowBase]; omega
    rw [BitVec.toNat_ofNat, BitVec.toNat_ofNat]
    generalize s.windowBase = w at *
    omega
  · rfl

/-- The address of a window word leads to its offset. -/
theorem windowOffset_windowBase (offset : BitVec 8) :
    s.windowOffset (BitVec.ofNat 32 (s.windowBase + offset.toNat)) = some offset := by
  have b : s.windowBase + offset.toNat < 2 ^ 32 := by
    have := s.wseg.isLt; have := offset.isLt; simp only [windowBase]; omega
  have ho := offset.isLt
  rw [windowOffset_eq_ite, BitVec.toNat_ofNat, Nat.mod_eq_of_lt b]
  generalize s.windowBase = w
  rw [if_pos (by omega), Nat.add_sub_cancel_left]
  exact congrArg some (BitVec.eq_of_toNat_eq (by rw [BitVec.toNat_ofNat, Nat.mod_eq_of_lt ho]))

/-- An address outside the window has no offset. -/
theorem windowOffset_eq_none_iff {a : Word} :
    s.windowOffset a = none ↔ a.toNat < s.windowBase ∨ s.windowBase + 256 ≤ a.toNat := by
  rw [windowOffset_eq_ite]
  generalize s.windowBase = w
  split <;> simp <;> omega
/-! ### Taking a request -/

/-- While the scrub engine holds the bus no request is taken, and its write waits (R156, R162). -/
theorem serveRequest_of_held {m : Mid} {code : BitVec 8} {body : State → Mid → State × Answer}
    (h : s.busHeld = true) :
    s.serveRequest m code body = s.hold (s.windowTransaction m 0 .write 4 (code.setWidth 32)) := by
  simp [serveRequest, h]

/-- During a power-on or pin reset a request write gets the bus error response (R110). -/
theorem serveRequest_of_reset {m : Mid} {code : BitVec 8} {body : State → Mid → State × Answer}
    (h : s.busHeld = false) (r : s.inReset = true) : s.serveRequest m code body = s.setBus (.error 0) := by
  simp [serveRequest, h, r]

/-- Otherwise the request is recorded, its rule runs, and its answer is written (R167). -/
theorem serveRequest_of_served {m : Mid} {code : BitVec 8} {body : State → Mid → State × Answer}
    (h : s.busHeld = false) (r : s.inReset = false) :
    s.serveRequest m code body =
      ((body (s.takeRequest m code) m).1.answer m code (body (s.takeRequest m code) m).2).setBus (.ready 0) := by
  simp [serveRequest, h, r]

/-- Recording a request touches the writer's window slot alone. -/
theorem takeRequest_frame (m : Mid) (code : BitVec 8) :
    s.takeRequest m code = { s with window := (s.takeRequest m code).window } := rfl

/-- Answering a request touches the writer's window slot alone. -/
theorem answer_frame (m : Mid) (code : BitVec 8) (a : Answer) :
    s.answer m code a = { s with window := (s.answer m code a).window } := rfl

@[simp] theorem master_takeRequest (m n : Mid) (code : BitVec 8) : (s.takeRequest m code).master n = s.master n := rfl
@[simp] theorem slot_takeRequest (m : Mid) (k : SlotIx) (code : BitVec 8) :
    (s.takeRequest m code).slot k = s.slot k := rfl
@[simp] theorem lease_takeRequest (m : Mid) (k : SlotIx) (code : BitVec 8) :
    (s.takeRequest m code).lease k = s.lease k := rfl
@[simp] theorem pool_takeRequest (m : Mid) (p : PoolIx) (code : BitVec 8) :
    (s.takeRequest m code).pool p = s.pool p := rfl
@[simp] theorem queue_takeRequest (m : Mid) (code : BitVec 8) : (s.takeRequest m code).queue = s.queue := rfl
@[simp] theorem time_takeRequest (m : Mid) (code : BitVec 8) : (s.takeRequest m code).time = s.time := rfl
@[simp] theorem ticks_takeRequest (m : Mid) (code : BitVec 8) : (s.takeRequest m code).ticks = s.ticks := rfl
@[simp] theorem scrub_takeRequest (m : Mid) (code : BitVec 8) : (s.takeRequest m code).scrub = s.scrub := rfl
@[simp] theorem supmid_takeRequest (m : Mid) (code : BitVec 8) : (s.takeRequest m code).supmid = s.supmid := rfl
@[simp] theorem pending_takeRequest (m : Mid) (code : BitVec 8) : (s.takeRequest m code).pending = s.pending := rfl

/-- The window slots while a request is taken. -/
theorem win_takeRequest (m n : Mid) (code : BitVec 8) :
    (s.takeRequest m code).win n =
      if m = n then { s.win m with lastCode := code, seq := (s.win m).seq + 1 } else s.win n := by
  simp [takeRequest]

/-! Recording a request leaves every argument as it stood, and every test a rule makes. -/

@[simp] theorem arg0_takeRequest (m n : Mid) (code : BitVec 8) :
    ((s.takeRequest m code).win n).arg0 = (s.win n).arg0 := by
  rw [win_takeRequest]
  split <;> simp_all

@[simp] theorem arg1_takeRequest (m n : Mid) (code : BitVec 8) :
    ((s.takeRequest m code).win n).arg1 = (s.win n).arg1 := by
  rw [win_takeRequest]
  split <;> simp_all

@[simp] theorem arg2_takeRequest (m n : Mid) (code : BitVec 8) :
    ((s.takeRequest m code).win n).arg2 = (s.win n).arg2 := by
  rw [win_takeRequest]
  split <;> simp_all

@[simp] theorem arg3_takeRequest (m n : Mid) (code : BitVec 8) :
    ((s.takeRequest m code).win n).arg3 = (s.win n).arg3 := by
  rw [win_takeRequest]
  split <;> simp_all

@[simp] theorem claimArgs_takeRequest (m n : Mid) (code : BitVec 8) :
    ((s.takeRequest m code).win n).claimArgs = (s.win n).claimArgs := by
  simp [WindowSlot.claimArgs]

@[simp] theorem argTag_takeRequest (m n : Mid) (code : BitVec 8) :
    ((s.takeRequest m code).win n).argTag = (s.win n).argTag := by
  simp [WindowSlot.argTag]

@[simp] theorem argHandle_takeRequest (m n : Mid) (code : BitVec 8) :
    ((s.takeRequest m code).win n).argHandle = (s.win n).argHandle := by
  simp [WindowSlot.argHandle]

@[simp] theorem argTerm_takeRequest (m n : Mid) (code : BitVec 8) :
    ((s.takeRequest m code).win n).argTerm = (s.win n).argTerm := by
  simp [WindowSlot.argTerm]

@[simp] theorem argDelegate_takeRequest (m n : Mid) (code : BitVec 8) :
    ((s.takeRequest m code).win n).argDelegate = (s.win n).argDelegate := by
  simp [WindowSlot.argDelegate]

@[simp] theorem argSlot_takeRequest (m n : Mid) (code : BitVec 8) :
    ((s.takeRequest m code).win n).argSlot = (s.win n).argSlot := by
  simp [WindowSlot.argSlot]

@[simp] theorem argSelector_takeRequest (m n : Mid) (code : BitVec 8) :
    ((s.takeRequest m code).win n).argSelector = (s.win n).argSelector := by
  simp [WindowSlot.argSelector]

@[simp] theorem poolArgs_takeRequest (m n : Mid) (code : BitVec 8) :
    ((s.takeRequest m code).win n).poolArgs = (s.win n).poolArgs := by
  simp [WindowSlot.poolArgs]

@[simp] theorem argDivider_takeRequest (m n : Mid) (code : BitVec 8) :
    ((s.takeRequest m code).win n).argDivider = (s.win n).argDivider := by
  simp [WindowSlot.argDivider]

@[simp] theorem argWarnLevel_takeRequest (m n : Mid) (code : BitVec 8) :
    ((s.takeRequest m code).win n).argWarnLevel = (s.win n).argWarnLevel := by
  simp [WindowSlot.argWarnLevel]

@[simp] theorem argGraceLength_takeRequest (m n : Mid) (code : BitVec 8) :
    ((s.takeRequest m code).win n).argGraceLength = (s.win n).argGraceLength := by
  simp [WindowSlot.argGraceLength]

@[simp] theorem argMaster_takeRequest (m n : Mid) (code : BitVec 8) :
    ((s.takeRequest m code).win n).argMaster = (s.win n).argMaster := by
  simp [WindowSlot.argMaster]

@[simp] theorem argQuota_takeRequest (m n : Mid) (code : BitVec 8) :
    ((s.takeRequest m code).win n).argQuota = (s.win n).argQuota := by
  simp [WindowSlot.argQuota]

@[simp] theorem argThreshold_takeRequest (m n : Mid) (code : BitVec 8) :
    ((s.takeRequest m code).win n).argThreshold = (s.win n).argThreshold := by
  simp [WindowSlot.argThreshold]

@[simp] theorem argFill_takeRequest (m n : Mid) (code : BitVec 8) :
    ((s.takeRequest m code).win n).argFill = (s.win n).argFill := by
  simp [WindowSlot.argFill]

@[simp] theorem argRunLength_takeRequest (m n : Mid) (code : BitVec 8) :
    ((s.takeRequest m code).win n).argRunLength = (s.win n).argRunLength := by
  simp [WindowSlot.argRunLength]

@[simp] theorem attached_takeRequest (m : Mid) (code : BitVec 8) (m' : Mid) :
    (s.takeRequest m code).attached m' = s.attached m' := rfl

@[simp] theorem fenced_takeRequest (m : Mid) (code : BitVec 8) (m' : Mid) :
    (s.takeRequest m code).fenced m' = s.fenced m' := rfl

@[simp] theorem isSupervisor_takeRequest (m : Mid) (code : BitVec 8) (m' : Mid) :
    (s.takeRequest m code).isSupervisor m' = s.isSupervisor m' := rfl

@[simp] theorem handle_takeRequest (m : Mid) (code : BitVec 8) (k : SlotIx) :
    (s.takeRequest m code).handle k = s.handle k := rfl

@[simp] theorem lookup_takeRequest (m : Mid) (code : BitVec 8) (h : Handle) :
    (s.takeRequest m code).lookup h = s.lookup h := rfl

@[simp] theorem standing_takeRequest (m : Mid) (code : BitVec 8) (m' : Mid) :
    (s.takeRequest m code).standing m' = s.standing m' := rfl

@[simp] theorem supervisorStanding_takeRequest (m : Mid) (code : BitVec 8) (m' : Mid) :
    (s.takeRequest m code).supervisorStanding m' = s.supervisorStanding m' := rfl

@[simp] theorem mstat_takeRequest (m : Mid) (code : BitVec 8) (m' : Mid) :
    (s.takeRequest m code).mstat m' = s.mstat m' := rfl

@[simp] theorem pendingItems_takeRequest (m : Mid) (code : BitVec 8) (m' : Mid) :
    (s.takeRequest m code).pendingItems m' = s.pendingItems m' := rfl

/-- The window slots once a request is answered. -/
@[simp] theorem win_answer (m n : Mid) (code : BitVec 8) (a : Answer) :
    (s.answer m code a).win n =
      if m = n then
        { s.win m with
          result := a.result.code, answered := code, val0 := a.val0, val1 := a.val1, val2 := a.val2
          val3 := a.val3 }
      else s.win n := by
  simp [answer]

/-- A refused request leaves the state it was tested in. -/
@[simp] theorem unlessRefused_some (a : Answer) (d : State × Answer) : s.unlessRefused (some a) d = (s, a) := rfl

/-- A request that nothing refuses is carried out. -/
@[simp] theorem unlessRefused_none (d : State × Answer) : s.unlessRefused none d = d := rfl

/-- A request refused by a standing check leaves the state it was tested in. -/
@[simp] theorem onLease_standing (a stale : Answer) (h : Handle) (rule : SlotIx → Lease → State × Answer) :
    s.onLease (some a) h stale rule = (s, a) := rfl

/-- A request whose handle names no lease is answered STALE. -/
theorem onLease_stale {h : Handle} {stale : Answer} {rule : SlotIx → Lease → State × Answer}
    (e : s.lookup h = none) : s.onLease none h stale rule = (s, stale) := by
  simp [onLease, e]

/-- A request whose handle names a lease goes on to its own rule. -/
theorem onLease_found {h : Handle} {stale : Answer} {rule : SlotIx → Lease → State × Answer} {k : SlotIx}
    {l : Lease} (e : s.lookup h = some (k, l)) : s.onLease none h stale rule = rule k l := by
  simp [onLease, e]

end State

end Sys2Proof.Machine
end

