-- ==== Sys2Proof/Laws/Answers.lean ====
section
/-! SUPPORT. What a served request's statement needs from the window, said once: its answer and its frame, and the
activation of the scrub list. -/

namespace Sys2Proof.Machine

/-- The low bits of a number past the place of another are that number's own. -/
theorem field_or (a b : Word) (lo width : Nat) : field (a ||| b) lo width = field a lo width ||| field b lo width := by
  simp only [field, ← BitVec.toNat_or]
  congr 1
  ext i hi
  simp

/-- A field below the place of another number reads zero in it. -/
theorem field_place_below (v lo width lo' width' : Nat) (h : lo' + width' ≤ lo) (b : lo + width ≤ 32) :
    field (place v lo width) lo' width' = 0 := by
  have hb : v % 2 ^ width * 2 ^ lo < 2 ^ 32 := by
    calc v % 2 ^ width * 2 ^ lo < 2 ^ width * 2 ^ lo :=
          Nat.mul_lt_mul_of_pos_right (Nat.mod_lt _ (by positivity)) (by positivity)
      _ = 2 ^ (width + lo) := by rw [pow_add]
      _ ≤ 2 ^ 32 := Nat.pow_le_pow_right (by norm_num) (by omega)
  simp only [field, place, BitVec.extractLsb'_toNat, BitVec.toNat_ofNat, Nat.shiftRight_eq_div_pow,
    Nat.mod_eq_of_lt hb]
  obtain ⟨d, rfl⟩ := Nat.exists_eq_add_of_le h
  have e : v % 2 ^ width * 2 ^ (lo' + width' + d) = v % 2 ^ width * 2 ^ d * 2 ^ width' * 2 ^ lo' := by
    rw [pow_add, pow_add]; ring
  rw [e, Nat.mul_div_cancel _ (by positivity), Nat.mul_mod_left]

/-- A field above the place of another number reads zero in it. -/
theorem field_place_above (v lo width lo' width' : Nat) (h : lo + width ≤ lo') :
    field (place v lo width) lo' width' = 0 := by
  have hb : v % 2 ^ width * 2 ^ lo < 2 ^ lo' := by
    calc v % 2 ^ width * 2 ^ lo < 2 ^ width * 2 ^ lo :=
          Nat.mul_lt_mul_of_pos_right (Nat.mod_lt _ (by positivity)) (by positivity)
      _ = 2 ^ (width + lo) := by rw [pow_add]
      _ ≤ 2 ^ lo' := Nat.pow_le_pow_right (by norm_num) (by omega)
  simp only [field, place, BitVec.extractLsb'_toNat, BitVec.toNat_ofNat, Nat.shiftRight_eq_div_pow]
  rw [Nat.div_eq_of_lt (lt_of_le_of_lt (Nat.mod_le _ _) hb), Nat.zero_mod]

namespace State

variable {s : State}

/-- A served request answers what its rule answers, and beside the window and the bus it leaves what its rule leaves. -/
theorem serveRequest_answered {m : Mid} {code : BitVec 8} {body : State → Mid → State × Answer} {u : State}
    {a : Answer} (h : s.Served) (b : body (s.takeRequest m code) m = (u, a))
    (w : u.win = (s.takeRequest m code).win) :
    s.serveRequest m code body =
        { u with
          window := (s.serveRequest m code body).window, bus := (s.serveRequest m code body).bus } ∧
      s.Answered (s.serveRequest m code body) m code a := by
  rw [serveRequest_of_served s h.2 h.1, b]
  refine ⟨rfl, ?_, ?_, rfl⟩
  · have e := congrFun w m
    have : ((u.answer m code a).setBus (.ready 0)).win m = (u.answer m code a).win m := rfl
    rw [this, win_answer, if_pos rfl, e, win_takeRequest, if_pos rfl]
  · intro n hn
    have e := congrFun w n
    rw [win_takeRequest, if_neg (Ne.symm hn)] at e
    have : ((u.answer m code a).setBus (.ready 0)).win n = (u.answer m code a).win n := rfl
    rw [this, win_answer, if_neg (Ne.symm hn), e]

/-- A request whose rule changes nothing is answered and leaves everything but the requester's window slot. -/
theorem answeredOnly_of_rule {c : Instr} {m : Mid} {code : BitVec 8} {body : State → Mid → State × Answer}
    {a : Answer} (h : s.Served) (e : exec c s = .next (s.serveRequest m code body))
    (b : body (s.takeRequest m code) m = (s.takeRequest m code, a)) : s.AnsweredOnly c m code a :=
  ⟨_, e, (serveRequest_answered h b rfl).1, (serveRequest_answered h b rfl).2⟩

/-- An ATTACHED master passes the standing checks (R127). -/
theorem standing_of_attached {m : Mid} (h : (s.master m).state = .attached) : s.standing m = none := by
  simp [standing, fenced, attached, h]

/-- The supervisor, once ATTACHED, passes those of a supervisor request (R127). -/
theorem supervisorStanding_of_attached (h : (s.master s.supmid).state = .attached) :
    s.supervisorStanding s.supmid = none := by
  simp [supervisorStanding, standing_of_attached h, isSupervisor]

/-- The handle check of R22 fails exactly when the handle names nothing. -/
theorem lookup_eq_none_iff (m : Mid) : s.lookup (s.win m).argHandle = none ↔ s.NamesNothing m := by
  unfold lookup NamesNothing
  by_cases z : Handle.middle (s.win m).argHandle = 0 <;>
    by_cases g : Handle.gen (s.win m).argHandle = (s.slot (Handle.slot (s.win m).argHandle)).gen <;>
      simp_all

/-- A handle that names a lease is looked up as it. -/
theorem lookup_of_names {m : Mid} {k : SlotIx} {l : Lease} (h : s.Names m k l) :
    s.lookup (s.win m).argHandle = some (k, l) := (lookup_eq_some s).2 ⟨h.1, h.2⟩

/-- With an ACTIVE entry activation does nothing (R154). -/
theorem activate_of_active (h : s.activeEntry.isSome = true) : s.activate = s := by simp [activate, h]

/-- Making the oldest QUEUED entry ACTIVE. -/
theorem activateOldest_split {older younger : List ScrubEntry} {q : ScrubEntry} {p : Nat}
    (h : q.state = .queued p) (o : ∀ x ∈ older, x.isQueued = false) :
    activateOldest (older ++ q :: younger) = older ++ { q with state := .active p } :: younger := by
  induction older with
  | nil => simp [activateOldest, ScrubEntry.isQueued, ScrubState.live, ScrubState.isActive, ScrubState.activated, h]
  | cons x xs ih => simp [activateOldest, o x (by simp), ih fun y hy => o y (by simp [hy])]

/-- Without one it makes the oldest QUEUED entry ACTIVE, if there is one (R154). -/
theorem activate_of_none (h : s.activeEntry = none) :
    s.activate = s.setScrub s.activate.scrub ∧ s.scrub.ActivatesTo s.activate.scrub := by
  by_cases q : s.scrub.list.any ScrubEntry.isQueued = true
  · refine ⟨by simp [activate, h, q], ?_, ?_⟩
    · intro older x younger p e st o
      have step : s.activate =
          s.setScrub { s.scrub with list := activateOldest s.scrub.list, breq := !s.scrub.bgnt } := by
        simp only [activate, h, q]
        simp
      rw [step, e, activateOldest_split st o]
      rfl
    · intro n
      simp only [List.any_eq_true] at q
      obtain ⟨x, hx, qx⟩ := q
      simp [n x hx] at qx
  · refine ⟨by simp only [activate, h, q]; rfl, ?_, ?_⟩
    · intro older x younger p e st o
      simp [e, ScrubEntry.isQueued, ScrubState.live, ScrubState.isActive, st] at q
    · intro _
      simp [activate, h, q]

end State

end Sys2Proof.Machine
end

