-- ==== Sys2Proof/Laws/Grant.lean ====
section
/-! SUPPORT. What a grant and a grant pass can do, said once. -/

namespace Sys2Proof.Machine.State

variable (s : State)

/-- A grant touches the slots and the master records alone. -/
theorem grantAt_frame (c : Claim) (p : Place) :
    s.grantAt c p = { s with slots := (s.grantAt c p).slots, masters := (s.grantAt c p).masters } := by
  cases p with
  | join k => simp only [grantAt]; split <;> rfl
  | fresh k => rfl

/-- A grant that joins appends one sharer entry to that lease and raises one held count (R48). -/
theorem grantAt_join {c : Claim} {k : SlotIx} {l : Lease} (h : s.lease k = some l) :
    s.grantAt c (.join k) = (s.setLease k (l.withSharer c.sharer)).raiseHeld c.master := by
  simp [grantAt, h]

/-- A grant in a pass touches the slots and the master records alone. -/
theorem grantInPass_frame (c : Claim) (p : Place) :
    s.grantInPass c p =
      { s with slots := (s.grantInPass c p).slots, masters := (s.grantInPass c p).masters } := by
  simp only [grantInPass]
  rw [notify_frame, grantAt_frame]
  rfl

/-- The scan of a pass touches the slots, the queue and the master records alone. -/
theorem grantScan_frame (older rest : List ClaimEntry) :
    grantScan older rest s =
      { s with
        slots := (grantScan older rest s).slots
        queue := (grantScan older rest s).queue
        masters := (grantScan older rest s).masters } := by
  induction rest generalizing s older with
  | nil => rfl
  | cons e rest ih =>
    simp only [grantScan]
    split
    · exact ih s _
    · rw [ih, grantInPass_frame]

/-- A grant pass touches the slots, the queue and the master records alone. -/
theorem grantPass_frame :
    s.grantPass =
      { s with slots := s.grantPass.slots, queue := s.grantPass.queue, masters := s.grantPass.masters } :=
  grantScan_frame s [] s.queue

/-- A pass over an empty queue changes nothing (R61). -/
theorem grantPass_of_empty (h : s.queue = []) : s.grantPass = s := by
  simp only [grantPass, h, grantScan, setQueue]
  cases s; simp_all

/-- What stays waiting after a scan: the entries passed over before it, then some of the rest, in their order. -/
theorem grantScan_queue (older rest : List ClaimEntry) :
    ∃ left, left.Sublist rest ∧ (grantScan older rest s).queue = older ++ left := by
  induction rest generalizing s older with
  | nil => exact ⟨[], List.Sublist.refl _, by simp [grantScan]⟩
  | cons e rest ih =>
    simp only [grantScan]
    split
    · obtain ⟨left, sub, q⟩ := ih s (older ++ [e])
      exact ⟨e :: left, sub.cons_cons e, by simpa using q⟩
    · obtain ⟨left, sub, q⟩ := ih _ older
      exact ⟨left, sub.cons e, q⟩

/-- A pass only takes entries out of the queue (R62). -/
theorem grantPass_queue_sublist : s.grantPass.queue.Sublist s.queue := by
  obtain ⟨left, sub, q⟩ := grantScan_queue s [] s.queue
  rw [grantPass, q]
  simpa using sub

/-- A claim that may be granted is blocked by no lease and by no older waiting claim, and has a place (R47). -/
theorem grantable_eq_some {older : List ClaimEntry} {c : Claim} {p : Place} :
    s.grantable older c = some p ↔
      s.blockingSlot c = none ∧ blockingCount older c = 0 ∧ s.placeFor c = some p := by
  simp only [grantable]
  split
  · rename_i h
    constructor
    · intro e; cases e
    · rintro ⟨a, b, -⟩; simp [a, b] at h
  · rename_i h
    simp only [not_or, Bool.not_eq_true, Option.isSome_eq_false_iff, Option.isNone_iff_eq_none, ne_eq,
      Decidable.not_not] at h
    simp [h]

end Sys2Proof.Machine.State
end

