-- ==== Sys2Proof/Laws/Held.lean ====
section
/-! SUPPORT. The transactions that wait for a scrub run: what holds one, what lets them on, and that taking a transaction
neither holds nor lets on another. -/

namespace Sys2Proof.Machine.State

variable {s t u : State}

/-! ### Holding and letting on -/

/-- Holding a transaction touches the waiting ones alone. -/
theorem hold_frame (s : State) (x : Transaction) : s.hold x = { s with held := s.held ++ [x] } := rfl

/-- The oldest waiting transaction is taken as if it came then. -/
theorem takeOldest_of_cons {x : Transaction} {xs : List Transaction} (h : s.held = x :: xs) :
    s.takeOldest = (s.setHeld xs).transact x.master x.address x.dir x.size x.data := by
  simp only [takeOldest, h]

/-- With nothing waiting there is nothing to take. -/
theorem takeHeld_of_nil (h : s.held = []) : s.takeHeld = s := by simp only [takeHeld, h, List.foldl_nil]

/-- The oldest waiting transaction is taken first, and then the others. -/
theorem takeHeld_of_cons {x : Transaction} {xs : List Transaction} (h : s.held = x :: xs)
    (g : s.takeOldest.held = xs) : s.takeHeld = s.takeOldest.takeHeld := by
  simp only [takeHeld, h, g, List.foldl_cons]

/-- A link event outside a run lets nothing on. -/
theorem letOn_of_free (h : s.busHeld = false) : s.letOn t = t := by simp [letOn, h]

/-- A link event after which the run goes on lets nothing on. -/
theorem letOn_of_held (h : t.busHeld = true) : s.letOn t = t := by simp [letOn, h]

/-- A link event that ends a run lets on what waited. -/
theorem letOn_of_end (h : s.busHeld = true) (h' : t.busHeld = false) : s.letOn t = t.takeHeld := by simp [letOn, h, h']

/-! ### Taking a transaction with the bus free -/

/-- `t` has the same transactions waiting as `s`, and no run where `s` has none. -/
def Keeps (s t : State) : Prop := t.held = s.held ∧ (s.scrub.run = none → t.scrub.run = none)

theorem Keeps.mk (h : t.held = s.held) (g : t.scrub = s.scrub) : s.Keeps t := ⟨h, fun e => g ▸ e⟩

theorem Keeps.refl (s : State) : s.Keeps s := ⟨rfl, id⟩

theorem Keeps.trans (h : s.Keeps t) (g : t.Keeps u) : s.Keeps u := ⟨g.1.trans h.1, g.2 ∘ h.2⟩

/-- A fold of steps that each keep them keeps them. -/
theorem Keeps.foldl {α : Type} {f : State → α → State} (h : ∀ s a, Keeps s (f s a)) (l : List α) (s : State) :
    Keeps s (l.foldl f s) := by
  induction l generalizing s with
  | nil => exact .refl s
  | cons a l ih => exact (h s a).trans (ih _)

theorem keeps_grantPass (s : State) : s.Keeps s.grantPass := by rw [grantPass_frame]; exact ⟨rfl, id⟩

theorem keeps_grantAt (s : State) (c : Claim) (p : Place) : s.Keeps (s.grantAt c p) := by
  rw [grantAt_frame]; exact ⟨rfl, id⟩

theorem keeps_notify (s : State) (k : SlotIx) (n : NoticeKind) (m : Mid) : s.Keeps (s.notify k n m) := by
  rw [notify_frame]; exact ⟨rfl, id⟩

theorem keeps_notifyAll (s : State) (k : SlotIx) (n : NoticeKind) (ms : List Mid) : s.Keeps (s.notifyAll k n ms) := by
  rw [notifyAll_frame]; exact ⟨rfl, id⟩

theorem keeps_dropNotice (s : State) (k : SlotIx) (m : Mid) : s.Keeps (s.dropNotice k m) := by
  rw [dropNotice_frame]; exact ⟨rfl, id⟩

theorem keeps_freeSlot (s : State) (k : SlotIx) : s.Keeps (s.freeSlot k) := by
  rw [freeSlot_frame]; exact ⟨rfl, id⟩

theorem keeps_taintSlot (s : State) (k : SlotIx) : s.Keeps (s.taintSlot k) := by
  rw [taintSlot_frame]; exact ⟨rfl, id⟩

theorem keeps_endMembership (s : State) (k : SlotIx) (m : Mid) : s.Keeps (s.endMembership k m) := by
  rw [endMembership_frame]; exact ⟨rfl, id⟩

theorem keeps_activate (s : State) : s.Keeps s.activate := by
  simp only [activate]; split <;> exact ⟨rfl, id⟩

theorem keeps_fenceOwned (m : Mid) (s : State) (k : SlotIx) : s.Keeps (fenceOwned m s k) := by
  simp only [fenceOwned]; split
  · exact .refl s
  · split
    · exact ((keeps_taintSlot ..).trans (keeps_notifyAll ..)).trans (keeps_notify ..)
    · exact .refl s

theorem keeps_fenceChain (m : Mid) (s : State) (k : SlotIx) : s.Keeps (fenceChain m s k) := by
  simp only [fenceChain]; split
  · exact .refl s
  · split
    · refine Keeps.trans ?_ (keeps_notifyAll ..)
      split
      · exact ⟨rfl, id⟩
      · exact Keeps.trans ⟨rfl, id⟩ (keeps_notify ..)
    · exact .refl s

theorem keeps_dropAllNotices (s : State) (m : Mid) : s.Keeps (s.dropAllNotices m) := by
  simp [Keeps, dropAllNotices]

theorem keeps_setMaster (s : State) (m : Mid) (x : Master) : s.Keeps (s.setMaster m x) := ⟨rfl, id⟩

/-- The entries of a master go and its record is emptied. -/
theorem keeps_emptyMaster (s : State) (m : Mid) (st : MasterState) :
    s.Keeps ((s.purgeEntries m).emptyMaster m st) := ⟨rfl, id⟩

theorem keeps_fenceMaster (s : State) (m : Mid) : s.Keeps (s.fenceMaster m) := by
  simp only [fenceMaster]
  refine Keeps.trans ?_ (keeps_grantPass _)
  refine Keeps.trans ?_ (keeps_emptyMaster ..)
  refine Keeps.trans ?_ (Keeps.foldl (keeps_fenceChain m) ..)
  refine Keeps.trans ?_ (Keeps.foldl (fun s k => keeps_endMembership s k m) ..)
  refine Keeps.trans ?_ (Keeps.foldl (keeps_fenceOwned m) ..)
  exact (keeps_dropAllNotices s m).trans (keeps_setMaster ..)

theorem keeps_detachSlot (m : Mid) (s : State) (k : SlotIx) : s.Keeps (detachSlot m s k) := by
  simp only [detachSlot]; split
  · exact keeps_freeSlot s k
  · exact keeps_endMembership s k m

theorem keeps_dropFinished (s : State) : s.Keeps s.dropFinished := ⟨rfl, id⟩

theorem keeps_detach (s : State) (m : Mid) : s.Keeps (s.detach m) := by
  simp only [detach]
  refine Keeps.trans ?_ (keeps_grantPass _)
  refine Keeps.trans ?_ (keeps_setMaster ..)
  have h : s.Keeps ((allSlots.foldl (detachSlot m) (s.dropAllNotices m)).purgeEntries m) :=
    ((keeps_dropAllNotices s m).trans (Keeps.foldl (keeps_detachSlot m) ..)).trans
      (Keeps.mk (setQueue_held ..) (setQueue_scrub ..))
  split
  · exact h.trans (keeps_dropFinished _)
  · exact h

theorem keeps_softReset (s : State) : s.Keeps s.softReset := by
  constructor
  · rw [softReset]
  · intro _; rw [softReset, ScrubEngine.softReset]

/-! The checks in front of a rule keep them where the rule does. -/

theorem keeps_unlessRefused {a : Option Answer} {x : State × Answer} (h : s.Keeps x.1) :
    s.Keeps (s.unlessRefused a x).1 := by
  cases a with
  | none => exact h
  | some a => exact .refl s

theorem keeps_onLease {a : Option Answer} {h : Handle} {b : Answer} {rule : SlotIx → Lease → State × Answer}
    (k : ∀ k l, s.Keeps (rule k l).1) : s.Keeps (s.onLease a h b rule).1 := by
  simp only [onLease]
  split
  · exact .refl s
  · split
    · exact .refl s
    · exact k ..

end Sys2Proof.Machine.State

namespace Sys2Proof.Machine

open State

theorem keeps_claimDispose (s : State) (c : Claim) (n : Nat) : s.Keeps (claimDispose s c n).1 := by
  simp only [claimDispose]
  repeat' split
  all_goals first | exact .refl s | exact keeps_grantAt ..

theorem keeps_notifyUser (s : State) (k : SlotIx) (n : NoticeKind) (h : Hold) : s.Keeps (s.notifyUser k n h) := by
  simp only [notifyUser]
  split
  · exact .refl s
  · exact keeps_notify ..

theorem keeps_setLease (s : State) (k : SlotIx) (l : Lease) : s.Keeps (s.setLease k l) := ⟨rfl, id⟩

theorem keeps_collect (s : State) (m : Mid) (i : Item) : s.Keeps (s.collect m i) := by
  cases i <;> first | exact keeps_dropNotice .. | exact ⟨rfl, id⟩

/-- The rule of a request neither holds a transaction nor lets one on, and begins no run. -/
theorem Request.keeps_rule (r : Request) (s : State) (m : Mid) : s.Keeps (r.rule s m).1 := by
  cases r <;> simp only [Request.rule]
  case attach =>
    simp only [attachRule]; split
    · exact .refl s
    · split
      · exact .refl s
      · exact keeps_setMaster ..
  case status => exact .refl s
  case detach => exact keeps_unlessRefused (keeps_unlessRefused (keeps_detach s m))
  case claim => exact keeps_unlessRefused (keeps_claimDispose ..)
  case cancel =>
    refine keeps_unlessRefused ?_
    split
    · exact .refl s
    · exact Keeps.trans (Keeps.mk rfl rfl) (keeps_grantPass _)
  case renew => exact keeps_onLease fun k l => keeps_unlessRefused (keeps_setLease ..)
  case release =>
    refine keeps_onLease fun k l => keeps_unlessRefused (Keeps.trans ?_ (keeps_grantPass _))
    split
    · exact (keeps_dropNotice ..).trans (keeps_endMembership ..)
    · exact (keeps_dropNotice ..).trans (keeps_freeSlot ..)
  case downgrade =>
    exact keeps_onLease fun k l => keeps_unlessRefused ((keeps_setLease ..).trans (keeps_grantPass _))
  case upgrade => exact keeps_onLease fun k l => keeps_unlessRefused (keeps_setLease ..)
  case lend => exact keeps_onLease fun k l => keeps_unlessRefused ((keeps_setLease ..).trans (keeps_notify ..))
  case giveBack =>
    exact keeps_onLease fun k l => keeps_unlessRefused ((keeps_setLease ..).trans (keeps_notifyUser ..))
  case nextNotice =>
    simp only [nextNoticeRule]; split
    · exact .refl s
    · split
      · exact .refl s
      · split
        · exact .refl s
        · exact keeps_collect ..
  case inspect =>
    simp only [inspectRule]; split
    · exact .refl s
    · split
      · exact .refl s
      · split <;> exact .refl s
  case setPool => exact keeps_unlessRefused (keeps_unlessRefused (Keeps.mk rfl rfl))
  case setTiming =>
    refine keeps_unlessRefused ?_
    split
    · exact .refl s
    · dsimp only
      split
      · exact Keeps.mk rfl rfl
      · exact Keeps.mk (by rw [mapSlots_held, setTime_held]) (by rw [mapSlots_scrub, setTime_scrub])
  case setMaster =>
    refine keeps_unlessRefused ?_
    split
    · exact .refl s
    · split
      · exact .refl s
      · dsimp only
        split
        · exact (keeps_setMaster ..).trans (keeps_fenceMaster ..)
        · exact keeps_setMaster ..
  case setFill =>
    refine keeps_unlessRefused ?_
    split
    · exact .refl s
    · exact ⟨rfl, id⟩
  case fence =>
    refine keeps_unlessRefused ?_
    split
    · exact .refl s
    · split
      · exact .refl s
      · dsimp only; exact keeps_fenceMaster ..
  case unfence =>
    refine keeps_unlessRefused ?_
    split
    · exact .refl s
    · exact keeps_setMaster ..
  case clearNote => exact keeps_unlessRefused (keeps_setMaster ..)
  case revoke =>
    refine keeps_onLease fun k l => keeps_unlessRefused ?_
    split
    · exact (keeps_taintSlot ..).trans (keeps_notifyAll ..)
    · exact ((keeps_notifyAll ..).trans (keeps_freeSlot ..)).trans (keeps_grantPass _)
  case scrub =>
    refine keeps_onLease fun k l => keeps_unlessRefused (Keeps.trans ?_ (keeps_activate _))
    exact ⟨rfl, id⟩
  case clear =>
    refine keeps_onLease fun k l => ?_
    split
    · exact .refl s
    · refine (Keeps.trans ?_ (keeps_grantPass _)).trans (keeps_activate _)
      refine Keeps.trans ?_ (keeps_freeSlot ..)
      split
      · exact ⟨rfl, id⟩
      · exact .refl s
  case adopt => exact keeps_onLease fun k l => keeps_unlessRefused (Keeps.mk rfl rfl)
  case softReset => exact keeps_unlessRefused (keeps_softReset s)
  -- RECALL
  exact keeps_onLease fun k l => keeps_unlessRefused ((keeps_setLease ..).trans (keeps_notifyAll ..))

namespace State

/-- So does any request code's rule. -/
theorem keeps_ruleOf (code : BitVec 8) (s : State) (m : Mid) : s.Keeps (ruleOf code s m).1 := by
  unfold ruleOf
  cases Request.ofCode code with
  | some r => exact Request.keeps_rule r s m
  | none => exact .refl s

/-- A served request with such a rule leaves the waiting transactions as they were, and begins no run. -/
theorem keeps_serveRequest {s : State} (m : Mid) (code : BitVec 8) {body : State → Mid → State × Answer}
    (h : s.busHeld = false) (b : ∀ s m, Keeps s (body s m).1) : s.Keeps (s.serveRequest m code body) := by
  simp only [serveRequest, h]
  split
  · contradiction
  · split
    · exact ⟨rfl, id⟩
    · exact (Keeps.mk rfl rfl).trans ((b (s.takeRequest m code) m).trans (Keeps.mk rfl rfl))

theorem keeps_reportRefusal (s : State) (m : Mid) (n : Note) : s.Keeps (s.reportRefusal m n) := by
  simp only [reportRefusal]; split
  · exact Keeps.trans (keeps_setMaster ..) (keeps_fenceMaster ..)
  · exact keeps_setMaster ..

theorem keeps_setBus (s : State) (b : BusResponse) : s.Keeps (s.setBus b) := ⟨rfl, id⟩

theorem keeps_judge (s : State) (m : Mid) (a : Word) (dir : Direction) : s.Keeps (s.judge m a dir) := by
  simp only [judge]; split
  · exact keeps_setBus ..
  · exact (keeps_reportRefusal ..).trans (keeps_setBus ..)

theorem keeps_windowWrite {s : State} (h : s.busHeld = false) (m : Mid) (offset : BitVec 8) (data : Word) :
    s.Keeps (s.windowWrite m offset data) := by
  simp only [windowWrite]
  split
  · exact keeps_serveRequest m _ h (keeps_ruleOf _)
  all_goals exact ⟨rfl, id⟩

theorem keeps_serveWindow {s : State} (h : s.busHeld = false) (m : Mid) (offset : BitVec 8) (dir : Direction) (n : Nat)
    (d : Word) : s.Keeps (s.serveWindow m offset dir n d) := by
  simp only [serveWindow, h, Bool.false_eq_true, if_false]
  split
  · exact keeps_setBus ..
  · cases dir with
    | read => dsimp only; split <;> exact keeps_setBus ..
    | write => exact keeps_windowWrite h ..

/-- With the bus free, taking a transaction leaves the waiting ones as they were, and begins no run. -/
theorem keeps_transact {s : State} (h : s.busHeld = false) (m : Mid) (a : Word) (dir : Direction) (n : Nat) (d : Word) :
    s.Keeps (s.transact m a dir n d) := by
  unfold transact
  cases s.windowOffset a with
  | some offset => exact keeps_serveWindow h ..
  | none =>
    simp only [h, Bool.false_eq_true, if_false]
    split
    · exact keeps_setBus ..
    · exact keeps_judge ..

end State

end Sys2Proof.Machine
end

