-- ==== Sys2Proof/WellFormed.lean ====
section
/-! DEFINITION. Which terms of `Instr` are commands of their row. The meanings are total: a term that is not a
well-formed command of its row still gets what the bus and the window do with the transaction it spells. -/

namespace Sys2Proof.Instr

/-- 1 to 16 bytes within one aligned 16-byte block (R108). -/
def onBus (address size : Nat) : Bool := 1 ≤ size && address % 16 + size ≤ 16

/-- The term is a command of its row. -/
def wellFormed : Instr → Bool
  | .unknownRequest _ code => Machine.Request.ofCode code = none
  | .windowWrite _ offset _ => offset.toNat % 4 = 0 && offset ≠ 0
  | .malformedWindowAccess _ offset _ size _ =>
    onBus offset.toNat size && !(size = 4 && offset.toNat % 4 = 0)
  | .access _ address _ size _ => onBus address.toNat size
  | .attach _ | .detach _ | .claim _ | .cancel _ | .renew _ | .release _ | .downgrade _ | .upgrade _ | .lend _
  | .giveBack _ | .recall _ | .nextNotice _ | .inspect _ | .status _ | .setPool _ | .setTiming _ | .setMaster _
  | .setFill _ | .fence _ | .unfence _ | .clearNote _ | .revoke _ | .scrub _ | .clear _ | .adopt _
  | .softReset _ => true
  | .tick | .leaseTableTick | .claimQueueTick => true
  | .termExpiry _ | .graceEnd _ | .sharerExpiry _ _ | .waitLimitExpiry _ _ => true
  | .runStart | .scrubWordAck | .scrubWriteError | .bgntDeasserted => true
  | .powerOnReset _ _ | .pinReset _ _ | .endOfReset => true

end Sys2Proof.Instr
end

