-- ==== Sys2Proof/Tests/Slice0.lean ====
section
/-! SUPPORT. Small tests: each is one command on a small state, its expected values from the rule or worked table of the
spec that its docstring names, and for each statement with hypotheses a witness that meets them. -/

-- One kernel evaluation at a time: side by side they would take more threads than the check allows.
set_option Elab.async false

namespace Sys2Proof.Tests

open Sys2Proof.Machine

/-! ### Helpers -/

/-- The state a command leaves. -/
def after (c : Instr) (s : State) : State :=
  match exec c s with
  | .next t => t
  | _ => s

/-- The result code that `m` reads after a command. -/
def result (c : Instr) (m : Mid) (s : State) : Nat := ((after c s).win m).result.toNat

/-- The four value words that `m` reads after a command. -/
def vals (c : Instr) (m : Mid) (s : State) : List Nat :=
  let w := (after c s).win m
  [w.val0.toNat, w.val1.toNat, w.val2.toNat, w.val3.toNat]

/-- `s` with the argument words of `m` as given. -/
def args (m : Mid) (a0 : Nat) (a1 a2 a3 : Nat := 0) (s : State) : State :=
  s.setWin m
    { s.win m with
      arg0 := BitVec.ofNat 32 a0, arg1 := BitVec.ofNat 32 a1, arg2 := BitVec.ofNat 32 a2, arg3 := BitVec.ofNat 32 a3 }

/-- A running term. -/
def term (granted remaining : Nat) (warned : Bool := false) : Term :=
  { granted := granted, remaining := remaining, warned := warned }

/-- A sharer. -/
def sharer (m : Mid) (tag : Tag) (n : Term) : Sharer := { master := m, tag := tag, term := n }

/-- Granules of pool 0. -/
def granules (first count : Nat) : Range := { pool := 0, first := first, count := count }

/-- A lease with these notices pending. -/
def lease (r : Range) (h : Hold) (notices : List (Mid × NoticeKind) := []) : Lease :=
  { range := r, hold := h, notices := notices.foldl (fun ns n => ns.set n.1 (some n.2)) NoticeSet.empty }

/-- `s` with that lease in slot `k` under that generation. -/
def put (k : SlotIx) (gen : BitVec 8) (l : Lease) (s : State) : State := s.setSlot k { gen := gen, lease := some l }

/-- `s` with the record of `m` changed. -/
def change (m : Mid) (f : Master → Master) (s : State) : State := s.setMaster m (f (s.master m))

/-- Pool 0 of 128 granules of 4 KiB under REFUSE and pool 1 of 16 granules of 16 KiB under READ_OPEN, as in 6.5; master 0
is the supervisor, and every master is ATTACHED. -/
def board : State :=
  { State.reset with
    wseg := 2
    pools :=
      #v[{ enabled := true, base := 0x20000000, size := 128, granule := .k4, policy := .refuse, maxTerm := 1000 },
        { enabled := true, base := 0x40000000, size := 16, granule := .k16, policy := .readOpen, maxTerm := 500 },
        Pool.reset, Pool.reset]
    masters := Vector.replicate 8 { Master.reset with state := .attached } }

/-- A board with something of everything: leases of every kind on their last tick, a waiting and an ended claim, an orphan,
a live and a finished scrub entry, master 6 FENCED and master 7 DETACHED. -/
def scene : State :=
  let s := put 0 1 (lease (granules 0 8) (.held 1 1 (term 20 1) [])) board
  let s := put 1 1 (lease (granules 32 8) (.shared [sharer 3 1 (term 9 9), sharer 4 9 (term 20 1)])) s
  let s := put 2 1 (lease (granules 16 4) (.held 2 7 (term 20 9) [5]) [(5, .delegated)]) s
  let s := put 3 1 (lease (granules 8 2) (.grace 1 2 (term 20 0 true) [] 1)) s
  let s := put 4 1 (lease (granules 40 4) (.tainted 2 8) [(2, .tainted)]) s
  let s := put 5 1 (lease (granules 44 1) (.scrub 5 3)) s
  let s := put 6 1 (lease (granules 48 4) (.shared [sharer 3 4 (term 20 1)])) s
  let s := change 1 (fun x => { x with held := 2, quota := 3 }) s
  let s := change 2 (fun x => { x with held := 1, orphan := some { handle := 0x0109, kind := .expired } }) s
  let s := change 3 (fun x => { x with held := 2 }) s
  let s := change 4 (fun x => { x with held := 1, waiting := 1, violations := 3 }) s
  let s := change 6 (fun x => { x with state := .fenced, violations := 4 }) s
  let s := change 7 (fun x => { x with state := .detached }) s
  { s with
    queue :=
      [{ claim := { master := 4, tag := 5, range := granules 0 4, mode := .exclusive, term := 10 }
         status := .waiting 1 },
        { claim := { master := 3, tag := 10, range := granules 60 4, mode := .shared, term := 10 }
          status := .ended }]
    scrub :=
      { s.scrub with
        list :=
          [{ handle := 0x0009, state := .failed 0x20030004 }, { handle := 0x0105, state := .active 0x2002C000 }]
        breq := true } }

/-- The scene with a run in progress and its first word in flight. -/
def running : State :=
  { scene with
    scrub :=
      { scene.scrub with
        bgnt := true
        run := some { limit := 16, words := 0, withdrawn := false }
        flight := some { address := 0x2002C000, data := 0 } } }

/-- The shape of a hold can be decided. -/
@[reducible] def decShape : DecidablePred State.HoldShape := fun h => by cases h <;> (unfold State.HoldShape; infer_instance)

/-- The terms of a hold can be decided. -/
@[reducible] def decTerms : DecidablePred State.HoldTerms := fun h => by
  cases h <;> (unfold State.HoldTerms State.TermRuns; infer_instance)

/-- The scene satisfies every law of Safety.lean. -/
theorem scene_laws :
    scene.CoverageLaw ∧ scene.ShapeLaw ∧ scene.QueueLaw ∧ scene.QuotaLaw ∧ scene.AttachmentLaw ∧
      scene.ThresholdLaw ∧ scene.SupervisorLaw ∧ scene.PoolLaw ∧ scene.RangeLaw ∧ scene.ScrubLaw ∧ scene.TermLaw := by
  refine ⟨?_, ?_, ?_, ?_, ?_, ?_, ?_, ?_, ?_, ?_, ?_⟩
  · unfold State.CoverageLaw; decide +kernel
  · refine @of_decide_eq_true _ (by unfold State.ShapeLaw; letI := decShape; infer_instance) ?_
    decide +kernel
  · unfold State.QueueLaw; decide +kernel
  · unfold State.QuotaLaw; decide +kernel
  · unfold State.AttachmentLaw State.HoldsNothing; decide +kernel
  · unfold State.ThresholdLaw; decide +kernel
  · unfold State.SupervisorLaw; decide +kernel
  · unfold State.PoolLaw; decide +kernel
  · unfold State.RangeLaw State.InEnabledPool; decide +kernel
  · unfold State.ScrubLaw; decide +kernel
  · refine @of_decide_eq_true _ (by unfold State.TermLaw; letI := decTerms; infer_instance) ?_
    decide +kernel

/-! ### Terms that are no command of their row (WellFormed) -/

theorem test_wellFormed_knownCode : Instr.wellFormed (.unknownRequest 0 0x01) = false := by decide
theorem test_wellFormed_unknownCode : Instr.wellFormed (.unknownRequest 0 0x03) = true := by decide
theorem test_wellFormed_writeToRequest : Instr.wellFormed (.windowWrite 0 0x00 0) = false := by decide
theorem test_wellFormed_unalignedWrite : Instr.wellFormed (.windowWrite 0 0x06 0) = false := by decide
theorem test_wellFormed_argWrite : Instr.wellFormed (.windowWrite 0 0x10 0) = true := by decide
theorem test_wellFormed_malformedIsFormed : Instr.wellFormed (.malformedWindowAccess 0 0x20 .read 4 0) = false := by
  decide
theorem test_wellFormed_malformedOffBus : Instr.wellFormed (.malformedWindowAccess 0 0x0E .read 3 0) = false := by decide
theorem test_wellFormed_malformed : Instr.wellFormed (.malformedWindowAccess 0 0x0E .read 2 0) = true := by decide
theorem test_wellFormed_emptyAccess : Instr.wellFormed (.access 0 0x100 .read 0 0) = false := by decide
theorem test_wellFormed_crossingAccess : Instr.wellFormed (.access 0 0x101 .write 16 0) = false := by decide
theorem test_wellFormed_wholeBlock : Instr.wellFormed (.access 0 0x100 .write 16 0) = true := by decide

/-- The table gives no bits, so no word spells a command. -/
theorem test_decode_none : decodeTableWord 32 0x10 = none := by decide

/-! ### Requests -/

/-- R129: from DETACHED; MSTAT reports ATTACHED, threshold 4 and quota 8 (Table 10-7). -/
theorem test_attach : result (.attach 3) 3 State.reset = 0 ∧ vals (.attach 3) 3 State.reset = [0x841, 0, 0, 0] := by
  decide +kernel

/-- R129: ALREADY_ATTACHED. -/
theorem test_attach_again : result (.attach 3) 3 board = 18 := by decide +kernel

/-- R131: one lease of its own, one membership and one entry end. -/
theorem test_detach : vals (.detach 4) 4 scene = [0, 1, 1, 0] ∧ (after (.detach 4) scene).attached 4 = false := by
  decide +kernel

/-- R130: master 5 stands in the chain of slot 2, handle 0x0102. -/
theorem test_detach_inChain :
    result (.detach 5) 5 scene = 33 ∧ vals (.detach 5) 5 scene = [0x0102, 0, 0, 0] := by decide +kernel

/-- Table 3-6, step 1: EXCLUSIVE, granules 0 to 7, term 200, tag 1: handle 0x0100, term 200. -/
theorem test_claim : vals (.claim 1) 1 (args 1 0x0110 0x00080000 200 0 board) = [0x0100, 0x00C80001, 0, 0] := by
  decide +kernel

/-- Table 3-6, step 3: term 1,500 clamped to 1,000; QUEUED at position 0 behind slot 0. Table 3-3: a FENCED claimant reads
its tag. R52: a claim short of a slot alone reads blocking slot 32 and blocking count 0. -/
theorem test_claim_notGranted :
    let s := args 3 0x0910 0x00040000 0x002805DC 0 (put 0 1 (lease (granules 0 8) (.held 1 1 (term 200 200) [])) board)
    let full := board.mapSlots fun x => { x with lease := some (lease (granules 0 1) (.tainted 1 1)) }
    result (.claim 3) 3 s = 2 ∧ vals (.claim 3) 3 s = [0, 0x03E80009, 0, 0] ∧
      vals (.claim 6) 6 (args 6 0x0710 65536 9 0 scene) = [0, 7, 0, 0] ∧
      vals (.claim 3) 3 (args 3 0x0710 (100 + 65536) 9 0 full) = [0, 7, 0x2000, 0] := by decide +kernel

/-- R59: the entry of tag 5 had one tick to wait. -/
theorem test_cancel : vals (.cancel 4) 4 (args 4 0x0500 0 0 0 scene) = [5, 1, 0, 0] := by decide +kernel

/-- R59: an ENDED entry is not withdrawn. -/
theorem test_cancel_ended : result (.cancel 3) 3 (args 3 0x0A00 0 0 0 scene) = 41 := by decide +kernel

/-- Table 4-5, tick 22: RENEW with term 0 in GRACE answers LATE and grants 20. -/
theorem test_renew_late :
    result (.renew 1) 1 (args 1 0x0103 0 0 0 scene) = 1 ∧
      vals (.renew 1) 1 (args 1 0x0103 0 0 0 scene) = [0x0103, 20, 0, 0] := by decide +kernel

/-- R80: a delegate is not the owner. -/
theorem test_renew_delegate : result (.renew 5) 5 (args 5 0x0102 0 0 0 scene) = 26 := by decide +kernel

/-- Table 2-8, step 6: the last sharer's release frees slot 1 with generation 1, and EXPIRED moves to master 3. -/
theorem test_release_lastSharer :
    let s := put 1 1 (lease (granules 32 8) (.shared [sharer 4 9 (term 9 9)]) [(3, .expired)]) board
    let t := after (.release 4) (args 4 0x0101 0 0 0 s)
    t.slot 1 = { gen := 1, lease := none } ∧ (t.master 3).orphan = some { handle := 0x0101, kind := .expired } := by
  decide +kernel

/-- Table 5-3, step 8: LENT, depth 1, current user 5. -/
theorem test_release_lent :
    result (.release 2) 2 (args 2 0x0102 0 0 0 scene) = 30 ∧
      vals (.release 2) 2 (args 2 0x0102 0 0 0 scene) = [0x0102, 1, 5, 0] := by decide +kernel

/-- Slot 6 of Table 5-3 with that chain and those notices. -/
def buffer (c : List Mid) (n : List (Mid × NoticeKind)) : State :=
  put 6 1 (lease (granules 64 4) (.held 2 4 (term 500 500) c) n) board

/-- Table 5-3, step 11: master 3's waiting claim joins in the grant pass: remaining 500, 2 sharers. -/
theorem test_downgrade :
    let s :=
      (buffer [] [(5, .recalled), (6, .delegated)]).setQueue
        [{ claim := { master := 3, tag := 1, range := granules 64 4, mode := .shared, term := 300 }
           status := .waiting 400 }]
    vals (.downgrade 2) 2 (args 2 0x0106 0 0 0 s) = [0x0106, 500, 2, 0] := by decide +kernel

/-- Table 5-3, step 14: remaining 300, granted 300. -/
theorem test_upgrade :
    let s := put 6 1 (lease (granules 64 4) (.shared [sharer 3 1 (term 300 300)])) board
    vals (.upgrade 3) 3 (args 3 0x0106 0 0 0 s) = [0x0106, 300, 300, 0] := by decide +kernel

/-- R94: slot 1 has another sharer. -/
theorem test_upgrade_busy : result (.upgrade 3) 3 (args 3 0x0101 0 0 0 scene) = 34 := by decide +kernel

/-- Table 5-3, step 5: depth 2, current user 6. -/
theorem test_lend : vals (.lend 5) 5 (args 5 0x0106 6 0 0 (buffer [5] [])) = [0x0106, 2, 6, 0] := by decide +kernel

/-- Table 5-3, step 7: master 6 gives back to master 5, which hears RETURNED. -/
theorem test_giveBack :
    let t := after (.giveBack 6) (args 6 0x0106 0 0 0 (buffer [5, 6] [(6, .delegated)]))
    t.lease 6 = some (lease (granules 64 4) (.held 2 4 (term 500 500) [5]) [(5, .returned), (6, .delegated)]) := by
  decide +kernel

/-- Table 5-3, step 6: NOT_USER, the current user being 6. -/
theorem test_giveBack_notUser :
    let s := args 5 0x0106 0 0 0 (buffer [5, 6] [])
    result (.giveBack 5) 5 s = 27 ∧ vals (.giveBack 5) 5 s = [0x0106, 6, 0, 0] := by decide +kernel

/-- Table 5-3, step 9: one frame removed, RETURNED replaced by RECALLED. -/
theorem test_recall :
    let s := args 2 0x0106 0 0 0 (buffer [5] [(5, .returned), (6, .delegated)])
    vals (.recall 2) 2 s = [0x0106, 1, 0, 0] ∧
      (after (.recall 2) s).lease 6 =
        some (lease (granules 64 4) (.held 2 4 (term 500 500) []) [(5, .recalled), (6, .delegated)]) := by
  decide +kernel

/-- Table 8-5, step 1: ORPHAN, RECALLED, 0x0205, with the orphan gone. -/
theorem test_nextNotice_orphan :
    let s := change 0 (fun x => { x with orphan := some { handle := 0x0205, kind := .recalled } }) board
    vals (.nextNotice 0) 0 s = [0x00180205, 0, 0, 0] := by decide +kernel

/-- Table 8-5, step 7: SCRUB_FAILED, 0x010C, failing word 0x4001_2340, TAINTED again. -/
theorem test_nextNotice_scrub :
    let s := put 12 1 (lease (granules 0 1) (.tainted 5 1)) board
    let s := { s with scrub := { s.scrub with list := [{ handle := 0x010C, state := .failed 0x40012340 }] } }
    vals (.nextNotice 0) 0 s = [0x034B010C, 0, 0, 0x40012340] := by decide +kernel

/-- The walk after Table 2-8: slot 0 lent to 5, next live slot 1. -/
theorem test_inspect :
    let s := put 0 1 (lease (granules 0 16) (.held 2 7 (term 9 9) [5]) [(5, .delegated)]) board
    let s := put 1 2 (lease (granules 100 4) (.held 6 2 (term 9 9) [])) s
    vals (.inspect 4) 4 s = [0x02190100, 0x00100000, 0x00090009, 0x00200752] := by decide +kernel

/-- The same walk: selector 1 shows master 5 in frame 1. -/
theorem test_inspect_frame :
    let s := put 0 1 (lease (granules 0 16) (.held 2 7 (term 9 9) [5]) [(5, .delegated)]) board
    (vals (.inspect 4) 4 (args 4 0x0100 0 0 0 s))[1]? = some 0x80000005 := by decide +kernel

/-- R133: a FENCED master reads its own context. -/
theorem test_status : vals (.status 6) 6 scene = [0x40000842, 0, 0, 0] := by decide +kernel

/-- Table 1-6, step 2: last byte 0x2FFF_EFFF. -/
theorem test_setPool :
    let s := args 0 0x0210 0x20000000 65535 1000 { State.reset with wseg := 2, masters := board.masters }
    vals (.setPool 0) 0 s = [0x2FFFEFFF, 0, 0, 0] := by decide +kernel

/-- Table 1-6, step 1: one granule more reaches the window, check 6. -/
theorem test_setPool_window :
    let s := args 0 0x0210 0x20000000 65536 1000 { State.reset with wseg := 2, masters := board.masters }
    result (.setPool 0) 0 s = 46 ∧ vals (.setPool 0) 0 s = [6, 0, 0, 0] := by decide +kernel

/-- Table 4-6: a new warn level of 12 sets the warned flag of every running term. -/
theorem test_setTiming :
    let s := put 7 2 (lease (granules 0 4) (.shared [sharer 3 1 (term 30 9), sharer 4 1 (term 5 2)])) board
    (after (.setTiming 0) (args 0 15999 0x040C 0 0 s)).lease 7 =
      some (lease (granules 0 4) (.shared [sharer 3 1 (term 30 9 true), sharer 4 1 (term 5 2 true)])) := by
  decide +kernel

/-- R134: quota 3, threshold 3; master 4 has three violations and is fenced at once. -/
theorem test_setMaster : vals (.setMaster 0) 0 (args 0 0x00030304 0 0 0 scene) = [3, 3, 1, 0] := by decide +kernel

/-- The leases of Table 7-4, with entry A of master 3 waiting. -/
def fenceBoard : State :=
  let s := put 2 3 (lease (granules 0 4) (.held 4 1 (term 9 9) [6]) [(6, .delegated)]) board
  let s := put 3 1 (lease (granules 8 4) (.held 1 1 (term 9 9) [2, 4, 5]) [(4, .delegated), (5, .delegated)]) s
  let s := put 5 2 (lease (granules 16 4) (.shared [sharer 3 1 (term 9 9), sharer 4 2 (term 9 9)])) s
  let s := put 7 4 (lease (granules 24 4) (.shared [sharer 4 3 (term 9 9)]) [(1, .expired), (4, .granted)]) s
  let s := s.setQueue
    [{ claim := { master := 3, tag := 2, range := granules 24 4, mode := .exclusive, term := 9 }
       status := .waiting 9 }]
  args 0 4 0 0 0 s

/-- Table 7-5: one lease tainted, two memberships ended, two frames cut. -/
theorem test_fence : vals (.fence 0) 0 fenceBoard = [1, 2, 2, 0] := by decide +kernel

/-- Table 7-5, steps 2 and 4. -/
theorem test_fence_effect :
    let t := after (.fence 0) fenceBoard
    t.lease 2 = some (lease (granules 0 4) (.tainted 4 1) [(0, .tainted), (6, .revoked)]) ∧
      t.lease 3 =
        some (lease (granules 8 4) (.held 1 1 (term 9 9) [2]) [(2, .returned), (5, .recalled)]) := by decide +kernel

/-- R140. -/
theorem test_unfence :
    result (.unfence 0) 0 (args 0 6 0 0 0 scene) = 0 ∧
      (after (.unfence 0) (args 0 6 0 0 0 scene)).master 6 =
        { Master.reset with state := .detached } := by decide +kernel

/-- R141: the count as it stood. -/
theorem test_clearNote : vals (.clearNote 0) 0 (args 0 4 0 0 0 scene) = [3, 0, 0, 0] := by decide +kernel

/-- R84: slot 2 is tainted; owner and delegate hear REVOKED. -/
theorem test_revoke :
    let t := after (.revoke 0) (args 0 0x0102 0 0 0 scene)
    t.lease 2 = some (lease (granules 16 4) (.tainted 2 7) [(2, .revoked), (5, .revoked)]) := by decide +kernel

/-- R85: slot 6 is freed, and its sharer's orphan holds REVOKED. -/
theorem test_revoke_shared :
    let t := after (.revoke 0) (args 0 0x0106 0 0 0 scene)
    t.slot 6 = { gen := 1, lease := none } ∧ (t.master 3).orphan = some { handle := 0x0106, kind := .revoked } := by
  decide +kernel

/-- Slot 4 of 9.8 in pool 3: one granule of 256 B at 0x6000_0800. -/
def scrubBoard (h : Hold) : State :=
  put 4 3 { range := { pool := 3, first := 8, count := 1 }, hold := h, notices := NoticeSet.empty }
    (board.setPool 3 { Pool.reset with enabled := true, base := 0x60000000, size := 64 })

/-- Table 9-2, step 2: position 0, active, 64 words. -/
theorem test_scrub : vals (.scrub 0) 0 (args 0 0x0304 0 0 0 (scrubBoard (.tainted 5 1))) = [0x0304, 0, 1, 64] := by
  decide +kernel

/-- That lease being scrubbed, its progress at `p`, with a run whose limit is 40 and whose word is in flight. -/
def scrubbing (p words : Nat) : State :=
  let s := scrubBoard (.scrub 5 1)
  { s with
    scrub :=
      { s.scrub with
        list := [{ handle := 0x0304, state := .active p }]
        fill := 0x5A5A5A5A
        runLength := 40
        breq := true
        bgnt := true
        run := some { limit := 40, words := words, withdrawn := false }
        flight := some { address := p, data := 0x5A5A5A5A } } }

/-- Table 9-2, step 1; R159: a run length of 65. -/
theorem test_setFill :
    vals (.setFill 0) 0 (args 0 0x5A5A5A5A 40 0 0 board) = [0x5A5A5A5A, 40, 0, 0] ∧
      result (.setFill 0) 0 (args 0 0 65 0 0 board) = 46 := by decide +kernel

/-- R162: a SET FILL that meets a run is taken after it, and the word that ends the run carries the old pattern. -/
theorem test_setFill_waitsForRun :
    let s := after (.setFill 0) (args 0 0x11111111 8 0 0 (scrubbing 0x6000089C 39))
    let t := after .scrubWordAck s
    s.scrub.fill = 0x5A5A5A5A ∧ s.held.length = 1 ∧ t.scrub.fill = 0x11111111 ∧ t.scrub.runLength = 8 ∧
      (t.win 0).answered = 0x43 ∧ t.held = [] := by decide +kernel

/-- 9.8: a CLEAR after step 6 reports the progress 0x6000_0864 and the state SCRUB. -/
theorem test_clear :
    let s := scrubbing 0x60000864 0
    let s := { s with scrub := { s.scrub with bgnt := false, run := none, flight := none } }
    vals (.clear 0) 0 (args 0 0x0304 0 0 0 s) = [0x0304, 4, 0x60000864, 0] := by decide +kernel

/-- R161: owner tag kept, the pool's maximum term granted. -/
theorem test_adopt :
    let t := after (.adopt 0) (args 0 0x0104 0 0 0 scene)
    t.lease 4 = some (lease (granules 40 4) (.held 0 8 (term 1000 1000) []) [(2, .tainted)]) := by decide +kernel

/-- Table 2-7: an EXCLUSIVE lease stays TAINTED, a SHARED one is freed, generations kept. -/
theorem test_softReset :
    let t := after (.softReset 0) scene
    t.lease 0 = some (lease (granules 0 8) (.tainted 1 1)) ∧ t.slot 1 = { gen := 1, lease := none } ∧
      t.cause = .soft := by decide +kernel

/-- R167: a code outside Table 10-2, from a DETACHED master. -/
theorem test_unknownRequest : result (.unknownRequest 7 0x03) 7 scene = 16 := by decide +kernel

/-! ### The window and the bus -/

/-- R166: ARG3 takes the word; the slots of other masters stay. -/
theorem test_windowWrite :
    ((after (.windowWrite 2 0x10 0xDEADBEEF) board).win 2).arg3 = 0xDEADBEEF ∧
      ((after (.windowWrite 2 0x10 0xDEADBEEF) board).win 3).arg3 = 0 := by decide +kernel

/-- R166: RESULT is read-only. -/
theorem test_windowWrite_readOnly : (after (.windowWrite 2 0x20 1) board).bus = .error 0 := by decide +kernel

/-- R166: a 2-byte read. -/
theorem test_malformedWindowAccess : (after (.malformedWindowAccess 2 0x20 .read 2 0) board).bus = .error 0 := by
  decide +kernel

/-- The leases of 6.5. -/
def judgeBoard : State :=
  let s := put 4 1 (lease (granules 16 4) (.held 2 1 (term 9 9) [5])) board
  let s := put 8 1 (lease (granules 32 4) (.shared [sharer 3 1 (term 9 9)])) s
  put 9 1 (lease (granules 40 4) (.tainted 6 1)) s

/-- Table 6-6, steps 1 to 3. -/
theorem test_access :
    (after (.access 5 0x20010040 .write 4 0) judgeBoard).bus = .passed ∧
      (after (.access 2 0x20010000 .read 4 0) judgeBoard).bus = .refused .lentAway (some 4) 0 ∧
      (after (.access 3 0x20020100 .read 4 0) judgeBoard).bus = .passed := by decide +kernel

/-- Table 6-6, steps 4 to 7: master 7 has threshold 3 and two violations. -/
theorem test_access_fences :
    let s := change 7 (fun x => { x with threshold := 3, violations := 2 }) judgeBoard
    let t := after (.access 7 0x40000000 .write 4 0) s
    (after (.access 3 0x20020100 .write 4 0) judgeBoard).bus = .refused .readOnly (some 8) 0 ∧
      (after (.access 7 0x20028000 .read 4 0) judgeBoard).bus = .refused .tainted (some 9) 0 ∧
      t.bus = .refused .noLease none 0 ∧ t.fenced 7 = true := by decide +kernel

/-! ### Time -/

/-- R69: the period begun is the divider value plus 1 long. -/
theorem test_tick :
    let t := after .tick (board.setTime { board.time with divider := 99, periodCount := 7 })
    t.time.periodCount = 0 ∧ t.time.periodLength = 100 := by decide +kernel

/-- Table 4-5, tick 12: the owner, not the delegate, is warned at 8. -/
theorem test_leaseTableTick_warns :
    let s := put 3 1 (lease (granules 10 4) (.held 2 1 (term 20 9) [6]) [(6, .delegated)]) board
    (after .leaseTableTick s).lease 3 =
      some (lease (granules 10 4) (.held 2 1 (term 20 8 true) [6]) [(2, .warned), (6, .delegated)]) := by
  decide +kernel

/-- Table 4-5, tick 46: TAINTED for the supervisor, the former owner and the delegate. -/
theorem test_leaseTableTick_taints :
    let s := put 3 1 (lease (granules 10 4) (.grace 2 1 (term 20 0 true) [6] 1) [(2, .expired)]) board
    (after .leaseTableTick s).lease 3 =
      some (lease (granules 10 4) (.tainted 2 1) [(0, .tainted), (2, .tainted), (6, .tainted)]) := by decide +kernel

/-- R57: the entry on its last tick ends. -/
theorem test_claimQueueTick :
    ((after .claimQueueTick scene).queue.map ClaimEntry.status) = [.ended, .ended] := by decide +kernel

/-- Table 4-5, tick 20: GRACE for 4 ticks, EXPIRED for the owner. -/
theorem test_termExpiry :
    let s := put 3 1 (lease (granules 10 4) (.held 2 1 (term 20 1 true) [6]) [(2, .warned)]) board
    (after (.termExpiry 3) s).lease 3 =
      some (lease (granules 10 4) (.grace 2 1 (term 20 0 true) [6] 4) [(2, .expired)]) := by decide +kernel

/-- R77, as on a tick. -/
theorem test_graceEnd : ((after (.graceEnd 3) scene).slot 3).state = .tainted := by decide +kernel

/-- R79: master 4 leaves slot 1, EXPIRED waiting in its set. -/
theorem test_sharerExpiry :
    (after (.sharerExpiry 1 4) scene).lease 1 =
      some (lease (granules 32 8) (.shared [sharer 3 1 (term 9 9)]) [(4, .expired)]) := by decide +kernel

/-- R57. -/
theorem test_waitLimitExpiry : ((after (.waitLimitExpiry 4 5) scene).master 4).waiting = 0 := by decide +kernel

/-! ### The scrub link and resets -/

/-- Table 9-2, step 4: the run takes its limit and places the first word. -/
theorem test_runStart :
    let s := scrubbing 0x60000800 0
    let t := after .runStart { s with scrub := { s.scrub with bgnt := false, run := none, flight := none } }
    t.scrub.run = some { limit := 40, words := 0, withdrawn := false } ∧
      t.scrub.flight = some { address := 0x60000800, data := 0x5A5A5A5A } := by decide +kernel

/-- Table 9-2, step 8: the last word completes the scrub. -/
theorem test_scrubWordAck :
    let t := after .scrubWordAck (scrubbing 0x600008FC 38)
    t.slot 4 = { gen := 3, lease := none } ∧ t.scrub.list = [{ handle := 0x0304, state := .done }] ∧
      t.scrub.breq = false := by decide +kernel

/-- R155: the fortieth word ends the run by limit. -/
theorem test_scrubWordAck_limit :
    let t := after .scrubWordAck (scrubbing 0x6000089C 39)
    t.scrub.list = [{ handle := 0x0304, state := .active 0x600008A0 }] ∧ t.scrub.run = none ∧
      t.scrub.breq = false := by decide +kernel

/-- 9.8: an error on the word at 0x6000_0874. -/
theorem test_scrubWriteError :
    let t := after .scrubWriteError (scrubbing 0x60000874 4)
    t.scrub.list = [{ handle := 0x0304, state := .failed 0x60000874 }] ∧ (t.slot 4).state = .tainted := by
  decide +kernel

/-- Table 9-2, step 9: BREQ is asserted once BGNT is deasserted. -/
theorem test_bgntDeasserted :
    let s := scrubbing 0x60000800 0
    let t := after .bgntDeasserted { s with scrub := { s.scrub with breq := false, run := none, flight := none } }
    t.scrub.breq = true := by decide +kernel

/-- R143: the straps are sampled, and everything is at its reset value. -/
theorem test_powerOnReset :
    after .endOfReset (after (.powerOnReset 5 9) scene) = { State.reset with supmid := 5, wseg := 9 } := by
  decide +kernel

/-- R143: the cause of a pin reset. -/
theorem test_pinReset : (after (.pinReset 0 0) scene).cause = .pin ∧ (after (.pinReset 0 0) scene).queue = [] := by
  decide +kernel

/-- R110: in a reset the window answers with the bus error response, and is back in service when it ends. -/
theorem test_endOfReset :
    let s := after (.pinReset 0 0) scene
    (after (.attach 2) s).bus = .error 0 ∧ result (.attach 2) 2 (after .endOfReset s) = 0 := by decide +kernel

/-! ### Witnesses: for each statement with hypotheses, states and operands that meet them -/

/-- The scene with a handle and a second word in the argument words of `m`. -/
def named (m : Mid) (handle : Nat) (a1 : Nat := 0) : State := args m handle a1 0 0 scene

/-- The scene with the arguments of a CLAIM by `m`. -/
def claimed (m : Mid) (pool mode tag first count n wait : Nat) : State :=
  args m (pool + 16 * mode + 256 * tag) (first + 65536 * count) (n + 65536 * wait) 0 scene

/-- `n` WAITING entries of master `m`, over granules beyond the scene's leases, with tags from 100 up. -/
def waiters (m : Mid) (n : Nat) : List ClaimEntry :=
  (List.range n).map fun i =>
    { claim :=
        { master := m, tag := BitVec.ofNat 8 (100 + i), range := granules (100 + i) 1, mode := .exclusive, term := 1 }
      status := .waiting 1 }

theorem scene_coverage : scene.CoverageLaw := scene_laws.1
theorem scene_shape : scene.ShapeLaw := scene_laws.2.1
theorem scene_pools : scene.PoolLaw := by unfold State.PoolLaw; decide +kernel
theorem scene_scrub : scene.ScrubLaw := by unfold State.ScrubLaw; decide +kernel

/-- Argument words stand outside every law. -/
theorem scene_served : scene.Served ∧ board.Served := by unfold State.Served; decide +kernel

/-- IdleStepPassesTime: a reset; each block alone with a tick due, and both; the last period but one, and the last. -/
theorem witness_IdleStepPassesTime :
    let due := fun t q => { board with ticks := { tableDue := t, queueDue := q, made := 3 } }
    let at_ := fun n => { board with time := { board.time with periodCount := n } }
    { board with inReset := true }.inReset = true ∧
      (due 1 0).inReset = false ∧ 0 < (due 1 0).ticks.tableDue ∧ (due 1 0).ticks.queueDue = 0 ∧
      (due 0 1).ticks.tableDue = 0 ∧ 0 < (due 0 1).ticks.queueDue ∧
      0 < (due 1 1).ticks.tableDue ∧ 0 < (due 1 1).ticks.queueDue ∧
      (at_ 15998).ticks.tableDue = 0 ∧ (at_ 15998).ticks.queueDue = 0 ∧
      (at_ 15998).time.periodCount + 1 < (at_ 15998).time.periodLength ∧
      (at_ 15999).time.periodLength ≤ (at_ 15999).time.periodCount + 1 := by decide +kernel

/-- RequestIsWriteOfItsCode: the bits above the code are ignored with the bus free, and zero while it is held. -/
theorem witness_RequestIsWriteOfItsCode :
    (0xFFFFFF10 : Word).extractLsb' 0 8 = Request.claim.code ∧ board.busHeld = false ∧ running.busHeld = true ∧
      (0x00000010 : Word).extractLsb' 0 8 = Request.claim.code ∧ (0x00000010 : Word) = Request.claim.code.setWidth 32 := by
  decide +kernel

/-- StandingChecks: a FENCED, a DETACHED and an ATTACHED requester that is not the supervisor. -/
theorem witness_StandingChecks :
    scene.Served ∧ (scene.master 6).state = .fenced ∧ Request.claim ≠ .status ∧ Request.claim ≠ .attach ∧
      (scene.master 7).state = .detached ∧ Request.detach ∉ Request.free ∧ Request.detach ≠ .claim ∧
      (scene.master 4).state = .attached ∧ (4 : Mid) ≠ scene.supmid ∧ Request.softReset ∈ Request.supervisors :=
  ⟨scene_served.1, by decide +kernel⟩

/-- StaleHandles: an old generation, a FREE slot and a bit of the middle, for a lending request and a supervisor's. -/
theorem witness_StaleHandles :
    (named 1 0x0000).Served ∧ (scene.master 1).state = .attached ∧ Request.release ∈ Request.handles ∧
      Request.release ∉ Request.supervisors ∧ (named 1 0x0000).NamesNothing 1 ∧ (named 1 0x0007).NamesNothing 1 ∧
      (named 1 0x0120).NamesNothing 1 ∧ Request.adopt ∈ Request.handles ∧ (0 : Mid) = scene.supmid ∧
      (named 0 0xFF1F).NamesNothing 0 := by
  unfold State.Served State.NamesNothing; decide +kernel

/-- UnknownRequestAnswered: the codes on both sides of a gap of Table 10-2. -/
theorem witness_UnknownRequestAnswered :
    scene.Served ∧ Request.ofCode 0x00 = none ∧ Request.ofCode 0x03 = none ∧ Request.ofCode 0x5E = none ∧
      Request.ofCode 0x60 = none := ⟨scene_served.1, by decide⟩

/-- WindowWrites: each argument word, the words next to them, and each form of a malformed access. -/
theorem witness_WindowWrites :
    board.busHeld = false ∧ board.inReset = false ∧
      (∀ offset ∈ [0x04#8, 0x08#8, 0x0C#8, 0x10#8], offset.toNat % 4 = 0) ∧
      0x14#8 ∉ [0x00#8, 0x04#8, 0x08#8, 0x0C#8, 0x10#8] ∧ 0xFF#8 ∉ [0x00#8, 0x04#8, 0x08#8, 0x0C#8, 0x10#8] ∧
      { board with inReset := true }.inReset = true ∧ 3 ≠ 4 ∧ (0x05#8).toNat % 4 ≠ 0 := by decide +kernel

/-- WindowReads: the last aligned offset, and an unassigned one. -/
theorem witness_WindowReads :
    scene.Served ∧ (0xFC#8).toNat % 4 = 0 ∧
      0x14#8 ∉ [0x00#8, 0x04#8, 0x08#8, 0x0C#8, 0x10#8, 0x20#8, 0x24#8, 0x28#8, 0x2C#8, 0x30#8, 0x40#8, 0x80#8,
        0x84#8, 0x88#8, 0x8C#8] := ⟨scene_served.1, by decide⟩

/-- AttachByState. -/
theorem witness_AttachByState :
    scene.Served ∧ (scene.master 7).state = .detached ∧ (scene.master 4).state = .attached ∧
      (scene.master 6).state = .fenced := ⟨scene_served.1, by decide +kernel⟩

/-- StatusReportsContext: without a note and with one. -/
theorem witness_StatusReportsContext :
    let n : Note := { address := 0x20009000, dir := .read, reason := .notHolder, slot := some 31 }
    scene.Served ∧ (scene.master 4).note = none ∧
      ((change 4 (fun x => { x with note := some n }) scene).master 4).note = some n :=
  ⟨scene_served.1, by decide +kernel⟩

/-- DetachChecks: master 2 has lent slot 2 and nothing lower; master 5 has lent nothing and stands in its chain. -/
theorem witness_DetachChecks :
    scene.Served ∧ (scene.master 2).state = .attached ∧ (scene.master 5).state = .attached ∧
      (∃ l, scene.lease 2 = some l ∧ l.hold.owner? = some 2 ∧ l.hold.chain ≠ [] ∧ (5 : Mid) ∈ l.hold.chain) ∧
      (∀ j, j < 2 → ∀ l ∈ scene.lease j, ¬(l.hold.owner? = some 2 ∧ l.hold.chain ≠ []) ∧ 5 ∉ l.hold.chain) ∧
      ∀ k, ∀ l ∈ scene.lease k, ¬(l.hold.owner? = some 5 ∧ l.hold.chain ≠ []) :=
  ⟨scene_served.1, by decide +kernel, by decide +kernel, ⟨_, rfl, by decide +kernel⟩, by decide +kernel,
    by decide +kernel⟩

/-- DetachPurges: master 3 is one of the sharers of slot 1 and the only one of slot 6; master 1 owns unlent leases. -/
theorem witness_DetachPurges :
    scene.Served ∧
      (∀ m ∈ [(1 : Mid), 3], (scene.master m).state = .attached ∧
        ∀ k, ∀ l ∈ scene.lease k, (l.hold.owner? = some m → l.hold.chain = []) ∧ m ∉ l.hold.chain) ∧
      (∃ l, scene.lease 6 = some l ∧ l.hold.shares 3 = true ∧ ∀ e ∈ l.hold.sharers, e.master = 3) ∧
      (∃ l, scene.lease 1 = some l ∧ l.hold.shares 3 = true ∧ ∃ e ∈ l.hold.sharers, e.master ≠ 3) ∧
      ∃ l, scene.lease 0 = some l ∧ l.hold.owner? = some 1 :=
  ⟨scene_served.1, by decide +kernel, ⟨_, rfl, by decide +kernel⟩, ⟨_, rfl, by decide +kernel⟩,
    ⟨_, rfl, by decide +kernel⟩⟩

/-- ClaimCheckOrder: one claim for each row, at the edges of its range: a disabled pool; counts 0, 4,097 and one granule
past the end; term 0; a tag in use; an own lease; an own waiting claim; the quota reached; and none of these. -/
theorem witness_ClaimCheckOrder :
    scene.Served ∧ (scene.master 4).state = .attached ∧
      [result (.claim 4) 4 (claimed 4 2 0 1 0 1 1 0), result (.claim 4) 4 (claimed 4 0 0 1 0 0 1 0),
        result (.claim 4) 4 (claimed 4 0 0 1 0 4097 1 0), result (.claim 4) 4 (claimed 4 0 0 1 127 2 1 0),
        result (.claim 4) 4 (claimed 4 0 0 1 127 1 0 0), result (.claim 4) 4 (claimed 4 0 0 5 127 1 1 0),
        result (.claim 4) 4 (claimed 4 0 0 1 39 1 1 0), result (.claim 4) 4 (claimed 4 0 0 1 3 1 1 0),
        result (.claim 4) 4 (change 4 (fun x => { x with quota := 2 }) (claimed 4 0 0 1 127 1 1 0)),
        result (.claim 4) 4 (change 4 (fun x => { x with quota := 3 }) (claimed 4 0 0 1 127 1 1 0))] =
        [21, 22, 22, 22, 23, 48, 40, 40, 39, 0] := ⟨scene_served.1, by decide +kernel⟩

/-- ClaimGrants: master 5 joins slot 1, and takes slot 7 for the last granule. -/
theorem witness_ClaimGrants :
    (let s := claimed 5 0 0 1 32 8 1 0
     let a := (s.win 5).claimArgs
     s.Served ∧ s.ClaimPasses 5 ∧ a.mode = .shared ∧
      (∀ j, ∀ l ∈ s.lease j, l.range.overlaps a.range = true → l.hold.mode = .shared) ∧
      (∀ e ∈ s.queue, e.isWaiting = true → e.claim.range.overlaps a.range = false) ∧
      (∃ l es, s.lease 1 = some l ∧ l.hold = .shared es ∧ l.range = a.range) ∧
      ∀ j, j < 1 → ∀ l ∈ s.lease j, l.hold.mode = .shared → l.range ≠ a.range) ∧
    (let s := claimed 5 0 1 1 127 1 1 0
     let a := (s.win 5).claimArgs
     s.Served ∧ s.ClaimPasses 5 ∧ a.mode = .exclusive ∧
      (∀ j, ∀ l ∈ s.lease j, l.range.overlaps a.range = false) ∧
      (∀ e ∈ s.queue, e.isWaiting = true → e.claim.range.overlaps a.range = false) ∧
      s.lease 7 = none ∧ ∀ j, j < 7 → s.lease j ≠ none) := by
  refine ⟨⟨?_, ?_, ?_, ?_, ?_, ⟨_, _, rfl, rfl, ?_⟩, ?_⟩, ?_, ?_, ?_, ?_, ?_, ?_, ?_⟩ <;>
    first
      | decide +kernel
      | (unfold State.Served; decide +kernel)
      | (unfold State.ClaimPasses; decide +kernel)

/-- ClaimWaitsOrIsRefused: a claim over the tainted range, waiting one tick or none; with four own entries; with a full
queue; one that nothing blocks when no slot is FREE; and one that all of a full queue blocks. -/
theorem witness_ClaimWaitsOrIsRefused :
    (∀ wait ∈ [0, 1],
      let s := claimed 5 0 1 1 40 4 1 wait
      s.Served ∧ s.ClaimPasses 5 ∧ ∃ l, s.lease 4 = some l ∧
        State.LeaseBlocks (s.win 5).claimArgs.mode (s.win 5).claimArgs.range l ∧
        ∀ j, j < 4 → ∀ l' ∈ s.lease j, l'.range.overlaps (s.win 5).claimArgs.range = false) ∧
    scene.queue.any (State.EntryBlocks .exclusive (granules 2 4)) = true ∧
    result (.claim 5) 5 (claimed 5 0 1 1 40 4 1 1) = 2 ∧ result (.claim 5) 5 (claimed 5 0 1 1 40 4 1 0) = 35 ∧
    result (.claim 5) 5 ((claimed 5 0 1 1 40 4 1 1).setQueue (waiters 5 4)) = 38 ∧
    result (.claim 5) 5 ((claimed 5 0 1 1 40 4 1 1).setQueue (waiters 4 16)) = 37 ∧
    result (.claim 5) 5
      ((claimed 5 0 1 1 127 1 1 0).mapSlots fun x => { x with lease := some (lease (granules 0 1) (.tainted 1 1)) }) =
        36 ∧
    -- sixteen WAITING entries that block it, in the five bits of the blocking count
    vals (.claim 5) 5
      ((claimed 5 0 1 1 127 1 1 0).setQueue
        ((waiters 4 16).map fun e => { e with claim := { e.claim with range := granules 127 1 } })) =
        [0, 1, 0x00102000, 0] := by
  refine ⟨fun wait h => ⟨?_, ?_, _, rfl, ?_, ?_⟩, ?_⟩
  · exact scene_served.1
  · revert wait h; unfold State.ClaimPasses; decide +kernel
  · revert wait h; unfold State.LeaseBlocks; decide +kernel
  · revert wait h; decide +kernel
  · decide +kernel

/-- CancelWithdraws: the entry of tag 5 is the oldest. -/
theorem witness_CancelWithdraws :
    let s := named 4 0x0500
    s.Served ∧ (s.master 4).state = .attached ∧
      ∃ e younger, s.queue = [] ++ e :: younger ∧ e.isWaiting = true ∧ e.claim.master = 4 ∧
        e.claim.tag = (s.win 4).argTag := by
  refine ⟨?_, ?_, _, _, rfl, ?_⟩ <;> first | decide +kernel | (unfold State.Served; decide +kernel)

/-- A handle of the scene names its lease for whoever writes it. -/
theorem named_names {m : Mid} {handle a1 : Nat} {k : SlotIx} {l : Lease}
    (h : ((named m handle a1).win m).argHandle = (named m handle a1).handle k) (e : scene.lease k = some l) :
    (named m handle a1).Served ∧ (named m handle a1).Names m k l := ⟨⟨rfl, rfl⟩, h, e⟩

/-- The leases of the scene. -/
theorem scene_leases :
    scene.lease 0 = some (lease (granules 0 8) (.held 1 1 (term 20 1) [])) ∧
      scene.lease 1 = some (lease (granules 32 8) (.shared [sharer 3 1 (term 9 9), sharer 4 9 (term 20 1)])) ∧
      scene.lease 2 = some (lease (granules 16 4) (.held 2 7 (term 20 9) [5]) [(5, .delegated)]) ∧
      scene.lease 3 = some (lease (granules 8 2) (.grace 1 2 (term 20 0 true) [] 1)) ∧
      scene.lease 4 = some (lease (granules 40 4) (.tainted 2 8) [(2, .tainted)]) ∧
      scene.lease 5 = some (lease (granules 44 1) (.scrub 5 3)) ∧
      scene.lease 6 = some (lease (granules 48 4) (.shared [sharer 3 4 (term 20 1)])) := by decide +kernel

/-- Masters 0 to 5 of the scene are ATTACHED, and master 0 is the supervisor. -/
theorem scene_attached : (∀ m : Mid, m.val ≤ 5 → (scene.master m).state = .attached) ∧ scene.supmid = 0 := by
  decide +kernel

/-- RenewRestartsTerm: a closed lease; a delegate; a master that is no sharer; the owner in HELD on the last tick and in
GRACE, for the granted term (0), 1 and a term past the pool's maximum; the younger of two sharers. -/
theorem witness_RenewRestartsTerm :
    (∃ l, (named 2 0x0104).Names 2 4 l ∧ l.hold.closed = true) ∧
      (∃ l, (named 5 0x0102).Names 5 2 l ∧ l.hold.owner? = some 2) ∧
      (∃ l es, (named 1 0x0101).Names 1 1 l ∧ l.hold = .shared es ∧ ∀ e ∈ es, e.master ≠ 1) ∧
      (∀ a1 ∈ [0, 1, 0xFFFF], ∃ l, (named 1 0x0100 a1).Names 1 0 l ∧ l.hold = .held 1 1 (term 20 1) []) ∧
      (∃ l, (named 1 0x0103).Names 1 3 l ∧ l.hold = .grace 1 2 (term 20 0 true) [] 1) ∧
      ∃ l older e, (named 4 0x0101).Names 4 1 l ∧ l.hold = .shared (older ++ e :: []) ∧ e.master = 4 ∧
        ∀ x ∈ older, x.master ≠ 4 := by
  obtain ⟨l0, l1, l2, l3, l4, -⟩ := scene_leases
  refine ⟨⟨_, (named_names (by decide +kernel) l4).2, rfl⟩, ⟨_, (named_names (by decide +kernel) l2).2, rfl⟩,
    ⟨_, _, (named_names (by decide +kernel) l1).2, rfl, by decide⟩, fun a1 h => ?_,
    ⟨_, (named_names (by decide +kernel) l3).2, rfl⟩,
    ⟨_, [sharer 3 1 (term 9 9)], _, (named_names (by decide +kernel) l1).2, rfl, rfl, by decide⟩⟩
  refine ⟨_, (named_names ?_ l0).2, rfl⟩
  revert a1
  decide +kernel

/-- RevokeEndsLease: TAINTED, SCRUB, a lent EXCLUSIVE lease and a SHARED one. -/
theorem witness_RevokeEndsLease :
    (∃ l, (named 0 0x0104).Names 0 4 l ∧ l.hold.state = .tainted) ∧
      (∃ l, (named 0 0x0105).Names 0 5 l ∧ l.hold.state = .scrub) ∧
      (∃ l, (named 0 0x0102).Names 0 2 l ∧ l.hold.owner? = some 2) ∧
      ∃ l es, (named 0 0x0106).Names 0 6 l ∧ l.hold = .shared es := by
  obtain ⟨-, -, l2, -, l4, l5, l6⟩ := scene_leases
  exact ⟨⟨_, (named_names (by decide +kernel) l4).2, rfl⟩, ⟨_, (named_names (by decide +kernel) l5).2, rfl⟩,
    ⟨_, (named_names (by decide +kernel) l2).2, rfl⟩, ⟨_, _, (named_names (by decide +kernel) l6).2, rfl⟩⟩

/-- ReleaseChecks: one request for each row, the entry rows first, and one that passes. -/
theorem witness_ReleaseChecks :
    (named 1 0x0100).Served ∧
      [result (.release 6) 6 (named 6 0x0100), result (.release 7) 7 (named 7 0x0100),
        result (.release 1) 1 (named 1 0x0000), result (.release 2) 2 (named 2 0x0104),
        result (.release 5) 5 (named 5 0x0102), result (.release 1) 1 (named 1 0x0101),
        result (.release 2) 2 (named 2 0x0102), result (.release 1) 1 (named 1 0x0100)] =
        [19, 17, 25, 29, 26, 26, 30, 0] := ⟨⟨rfl, rfl⟩, by decide +kernel⟩

/-- ModeChangeChecks: one request for each row of both, and one of each that passes. -/
theorem witness_ModeChangeChecks :
    (named 1 0x0100).Served ∧
      [result (.downgrade 3) 3 (named 3 0x0106), result (.downgrade 1) 1 (named 1 0x0103),
        result (.downgrade 5) 5 (named 5 0x0102), result (.downgrade 2) 2 (named 2 0x0102),
        result (.downgrade 1) 1 (named 1 0x0100)] = [28, 29, 26, 30, 0] ∧
      [result (.upgrade 1) 1 (named 1 0x0100), result (.upgrade 5) 5 (named 5 0x0106),
        result (.upgrade 3) 3 (named 3 0x0101),
        result (.upgrade 3) 3 (put 31 1 (lease (granules 51 1) (.shared [sharer 5 1 (term 9 9)])) (named 3 0x0106)),
        result (.upgrade 3) 3 (named 3 0x0106)] = [28, 26, 34, 35, 0] := ⟨⟨rfl, rfl⟩, by decide +kernel⟩

/-- LendingChecks: one request for each row of the three, and one of each that passes; a chain of two takes a third
delegate, a chain of three none. -/
theorem witness_LendingChecks :
    (named 1 0x0100).Served ∧
      [result (.lend 3) 3 (named 3 0x0106 1), result (.lend 1) 1 (named 1 0x0103 4),
        result (.lend 2) 2 (named 2 0x0102 4), result (.lend 1) 1 (named 1 0x0100 7),
        result (.lend 1) 1 (named 1 0x0100 1), result (.lend 3) 3 (args 3 0x0106 1 0 0 (buffer [5, 6, 3] [])),
        result (.lend 6) 6 (args 6 0x0106 1 0 0 (buffer [5, 6] [])), result (.lend 1) 1 (named 1 0x0100 4)] =
        [28, 29, 27, 24, 33, 32, 0, 0] ∧
      [result (.giveBack 3) 3 (named 3 0x0106), result (.giveBack 2) 2 (named 2 0x0104),
        result (.giveBack 1) 1 (named 1 0x0100), result (.giveBack 2) 2 (named 2 0x0102),
        result (.giveBack 5) 5 (named 5 0x0102)] = [28, 29, 31, 27, 0] ∧
      [result (.recall 3) 3 (named 3 0x0106), result (.recall 2) 2 (named 2 0x0104),
        result (.recall 5) 5 (named 5 0x0102), result (.recall 1) 1 (named 1 0x0100),
        result (.recall 2) 2 (named 2 0x0102)] = [28, 29, 26, 31, 0] := ⟨⟨rfl, rfl⟩, by decide +kernel⟩

/-- ReleaseGivesUp: an unlent lease in HELD and one in GRACE; the only sharer; the older of two. -/
theorem witness_ReleaseGivesUp :
    (∃ l, (named 1 0x0100).Names 1 0 l ∧ l.hold.owner? = some 1 ∧ l.hold.chain = []) ∧
      (∃ l, (named 1 0x0103).Names 1 3 l ∧ l.hold.owner? = some 1 ∧ l.hold.chain = []) ∧
      (∃ l e, (named 3 0x0106).Names 3 6 l ∧ l.hold = .shared ([] ++ e :: []) ∧ e.master = 3) ∧
      ∃ l e younger, (named 3 0x0101).Names 3 1 l ∧ l.hold = .shared ([] ++ e :: younger) ∧ e.master = 3 ∧
        younger ≠ [] ∧ ∀ x ∈ younger, x.master ≠ 3 := by
  obtain ⟨l0, l1, -, l3, -, -, l6⟩ := scene_leases
  exact ⟨⟨_, (named_names (by decide +kernel) l0).2, rfl, rfl⟩, ⟨_, (named_names (by decide +kernel) l3).2, rfl, rfl⟩,
    ⟨_, _, (named_names (by decide +kernel) l6).2, rfl, rfl⟩,
    ⟨_, _, _, (named_names (by decide +kernel) l1).2, rfl, rfl, by decide, by decide⟩⟩

/-- DowngradeShares and UpgradeOwns: master 1's slot 0, and slot 6, which overlaps nothing. -/
theorem witness_DowngradeShares_UpgradeOwns :
    (∃ l, (named 1 0x0100).Names 1 0 l ∧ l.hold = .held 1 1 (term 20 1) []) ∧
      ∃ l e, (named 3 0x0106).Names 3 6 l ∧ l.hold = .shared [e] ∧ e.master = 3 ∧
        ∀ j, j ≠ 6 → ∀ l' ∈ (named 3 0x0106).lease j, l'.range.overlaps l.range = false := by
  obtain ⟨l0, -, -, -, -, -, l6⟩ := scene_leases
  exact ⟨⟨_, (named_names (by decide +kernel) l0).2, rfl⟩,
    ⟨_, _, (named_names (by decide +kernel) l6).2, rfl, rfl, by decide +kernel⟩⟩

/-- LendReturnRecall: a lease lent for the first and for the third time, a frame given back and a chain recalled. -/
theorem witness_LendReturnRecall :
    (∃ l, (named 1 0x0100 4).Names 1 0 l ∧ l.hold.owner? = some 1 ∧ l.hold.state = .held ∧
        l.hold.chain.getLast?.getD 1 = 1 ∧ (scene.master 4).state = .attached ∧ 4 ∉ l.hold.chain) ∧
      (∃ l, (args 6 0x0106 3 0 0 (buffer [5, 6] [])).Names 6 6 l ∧ l.hold.owner? = some 2 ∧
        l.hold.chain.getLast?.getD 2 = 6 ∧ 3 ∉ l.hold.chain ∧ l.hold.chain.length = 2) ∧
      (∃ l, (named 5 0x0102).Names 5 2 l ∧ l.hold.owner? = some 2 ∧ l.hold.chain = [] ++ [5]) ∧
      ∃ l, (named 2 0x0102).Names 2 2 l ∧ l.hold.owner? = some 2 ∧ l.hold.chain ≠ [] := by
  obtain ⟨l0, -, l2, -⟩ := scene_leases
  exact ⟨⟨_, (named_names (by decide +kernel) l0).2, rfl, rfl, rfl, by decide +kernel, by decide⟩,
    ⟨_, ⟨by decide +kernel, rfl⟩, rfl, rfl, by decide, rfl⟩,
    ⟨_, (named_names (by decide +kernel) l2).2, rfl, rfl⟩, ⟨_, (named_names (by decide +kernel) l2).2, rfl, by decide⟩⟩

/-- NextNoticeCollects: master 1 has nothing; 2 an orphan; 3 an ENDED entry, not the oldest of the queue; 5 a notice in
slot 2 and in no lower one; 0 a finished scrub entry only. -/
theorem witness_NextNoticeCollects :
    scene.Served ∧ (scene.master 6).state = .fenced ∧ (scene.master 7).state = .detached ∧
      (∀ m ∈ [(0 : Mid), 1, 3, 5], (scene.master m).orphan = none) ∧
      (∀ m ∈ [(0 : Mid), 1, 5], ∀ e ∈ scene.queue, ¬(e.claim.master = m ∧ e.status = .ended)) ∧
      (∀ m ∈ [(0 : Mid), 1], ∀ k, ∀ l ∈ scene.lease k, l.notices[m] = none) ∧
      (scene.master 2).orphan = some { handle := 0x0109, kind := .expired } ∧
      (∃ x e, scene.queue = [x] ++ e :: [] ∧ e.claim.master = 3 ∧ e.status = .ended ∧ x.claim.master ≠ 3) ∧
      (∃ l, scene.lease 2 = some l ∧ l.notices[(5 : Mid)] = some .delegated) ∧
      (∀ j, j < 2 → ∀ l ∈ scene.lease j, l.notices[(5 : Mid)] = none) ∧
      ∃ e younger, scene.scrub.list = [] ++ e :: younger ∧ (0 : Mid) = scene.supmid ∧ e.state.live = false := by
  refine ⟨scene_served.1, ?_, ?_, ?_, ?_, ?_, ?_, ⟨_, _, rfl, ?_⟩, ⟨_, scene_leases.2.2.1, ?_⟩, ?_, ⟨_, _, rfl, ?_⟩⟩ <;>
    decide +kernel

/-- InspectReports: slot 32, selector 9, a FREE slot 31 with selector 8, and a sharer in place 2. -/
theorem witness_InspectReports :
    scene.Served ∧ 31 < ((named 1 0x0020).win 1).argSlot ∧ 8 < ((named 1 0x0900).win 1).argSelector ∧
      (31 : SlotIx).val = ((named 1 0x081F).win 1).argSlot ∧ ((named 1 0x081F).win 1).argSelector = 8 ∧
      scene.lease 31 = none ∧ (1 : SlotIx).val = ((named 1 0x0201).win 1).argSlot ∧
      ((named 1 0x0201).win 1).argSelector = 2 := ⟨scene_served.1, by decide +kernel⟩

/-- InspectNextLive: after slot 6 comes slot 0; alone in the table, a slot has none. -/
theorem witness_InspectNextLive :
    (0 : SlotIx) ≠ 6 ∧ scene.lease 0 ≠ none ∧
      (∀ i, i ≠ 6 → scene.lease i ≠ none → ((0 : SlotIx) - 6).val ≤ (i - 6).val) ∧
      ∀ i, i ≠ 6 → (buffer [] []).lease i = none := by decide +kernel

/-- SetPoolReplaces: one request for each row, at the edges of its field, and two that are accepted (Table 1-6). -/
theorem witness_SetPoolReplaces :
    (named 0 0).Served ∧ (scene.master scene.supmid).state = .attached ∧
      (let ask := fun a0 base size top => vals (.setPool 0) 0 (args 0 a0 base size top scene)
       [ask 0x0210 0 1 1, ask 0x0312 0xC0000000 0 1, ask 0x0312 0xC0000000 65537 1, ask 0x0312 0xC0000100 1 1,
        ask 0x0312 0xFFFF0000 5 200, ask 0x3312 0xC0000000 1 1, ask 0x0312 0xC0000000 1 0,
        ask 0x0312 0x2FFFC000 1 1, ask 0x0212 0x20000000 1 1, ask 0x0312 0xFFFF0000 4 200,
        ask 0x0302 0x2FFFC000 1 1].map fun v => v.take 2) =
        [[7, 2], [1, 0], [1, 0], [2, 0], [3, 0], [4, 0], [5, 0], [6, 0], [7, 0], [0xFFFFFFFF, 0], [0x2FFFFFFF, 0]] :=
  ⟨⟨rfl, rfl⟩, by decide +kernel⟩

/-- SettingsReplaced: divider values 0 and 1, warn levels equal to and other than 8; run lengths 0, 1, 64 and 65. -/
theorem witness_SettingsReplaced :
    scene.Served ∧ (scene.master scene.supmid).state = .attached ∧ ((named 0 0).win 0).argDivider = 0 ∧
      ((named 0 1 8).win 0).argDivider = 1 ∧ ((named 0 1 8).win 0).argWarnLevel = scene.time.warnLevel ∧
      ((named 0 1 9).win 0).argWarnLevel ≠ scene.time.warnLevel ∧
      [0, 1, 64, 65].map (fun n => ((named 0 0 n).win 0).argRunLength) = [0, 1, 64, 65] :=
  ⟨scene_served.1, by decide +kernel⟩

/-- SetMasterReplaces: quotas 0 and 33; a quota one below the counts; a threshold above and at the violation count. -/
theorem witness_SetMasterReplaces :
    scene.Served ∧ (scene.master scene.supmid).state = .attached ∧
      [result (.setMaster 0) 0 (named 0 0x00040004), result (.setMaster 0) 0 (named 0 0x00042104),
        result (.setMaster 0) 0 (named 0 0x00040104), result (.setMaster 0) 0 (named 0 0x00040204),
        result (.setMaster 0) 0 (named 0 0x00032004)] = [46, 46, 39, 0, 0] ∧
      (after (.setMaster 0) (named 0 0x00040204)).fenced 4 = false ∧
      (after (.setMaster 0) (named 0 0x00032004)).fenced 4 = true := ⟨scene_served.1, by decide +kernel⟩

/-- FenceCounts: the supervisor, a FENCED master and another. -/
theorem witness_FenceCounts :
    scene.Served ∧ (scene.master scene.supmid).state = .attached ∧
      [result (.fence 0) 0 (named 0 0), result (.fence 0) 0 (named 0 6), result (.fence 0) 0 (named 0 4)] = [47, 29, 0] :=
  ⟨scene_served.1, by decide +kernel⟩

/-- FenceEffect: master 4 of Table 7-4 owns slot 2, is the only sharer of slot 7, one of those of slot 5, and stands in the
middle of the chain of slot 3. -/
theorem witness_FenceEffect :
    (4 : Mid) ≠ fenceBoard.supmid ∧ (∃ l, fenceBoard.lease 2 = some l ∧ l.hold.owner? = some 4) ∧
      (∃ l, fenceBoard.lease 7 = some l ∧ l.hold.shares 4 = true ∧ ∀ e ∈ l.hold.sharers, e.master = 4) ∧
      (∃ l, fenceBoard.lease 5 = some l ∧ l.hold.shares 4 = true ∧ ∃ e ∈ l.hold.sharers, e.master ≠ 4) ∧
      (∃ l, fenceBoard.lease 3 = some l ∧ l.hold.owner? = some 1 ∧ (4 : Mid) ∈ l.hold.chain) ∧
      ∃ l, scene.lease 0 = some l ∧ l.hold.owner? ≠ some 4 ∧ l.hold.shares 4 = false ∧ 4 ∉ l.hold.chain := by
  refine ⟨?_, ⟨_, rfl, ?_⟩, ⟨_, rfl, ?_⟩, ⟨_, rfl, ?_⟩, ⟨_, rfl, ?_⟩, ⟨_, rfl, ?_⟩⟩ <;> decide +kernel

/-- UnfenceLifts and ClearNoteReportsAndClears: a master that is not FENCED and one that is; a note empty and filled. -/
theorem witness_UnfenceLifts_ClearNote :
    let n : Note := { address := 0xFFFFFFFF, dir := .write, reason := .noLease, slot := none }
    scene.Served ∧ (scene.master scene.supmid).state = .attached ∧
      ((named 0 4).master ((named 0 4).win 0).argMaster).state ≠ .fenced ∧
      ((named 0 6).master ((named 0 6).win 0).argMaster).state = .fenced ∧
      ((named 0 4).master ((named 0 4).win 0).argMaster).note = none ∧
      ((change 4 (fun x => { x with note := some n }) (named 0 4)).master 4).note = some n :=
  ⟨scene_served.1, by decide +kernel⟩

/-- SoftResetResets: the scene holds leases of both modes. -/
theorem witness_SoftResetResets :
    scene.Served ∧ (scene.master scene.supmid).state = .attached ∧
      (∃ l, scene.lease 1 = some l ∧ l.hold.mode = .shared) ∧
      ∃ l, scene.lease 3 = some l ∧ l.hold.mode = .exclusive ∧ l.hold.ownerItems = ((1 : Mid).val, (2 : Tag).toNat) := by
  obtain ⟨-, l1, -, l3, -⟩ := scene_leases
  exact ⟨scene_served.1, by decide +kernel, ⟨_, l1, rfl⟩, ⟨_, l3, rfl, rfl⟩⟩

/-- ScrubEntersList: a lease in SCRUB, one in HELD, a full list; and a tainted lease with a live entry on the list and with
none. -/
theorem witness_ScrubEntersList :
    scene.ScrubLaw ∧ (scene.master scene.supmid).state = .attached ∧
      (∃ l, (named 0 0x0104).Names 0 4 l ∧ l.hold = .tainted 2 8) ∧ (∃ e ∈ scene.scrub.list, e.state.live = true) ∧
      [result (.scrub 0) 0 (named 0 0x0105), result (.scrub 0) 0 (named 0 0x0103), result (.scrub 0) 0 (named 0 0x0104),
        result (.scrub 0) 0
          { named 0 0x0104 with
            scrub := { scene.scrub with list := List.replicate 8 { handle := 0, state := .done } } }] =
        [44, 29, 0, 43] ∧
      (let s := args 0 0x0304 0 0 0 (scrubBoard (.tainted 5 1))
       s.Served ∧ s.ScrubLaw ∧ (∃ l, s.Names 0 4 l ∧ l.hold = .tainted 5 1) ∧
        ∀ e ∈ s.scrub.list, e.state.live = false) := by
  obtain ⟨-, -, -, -, l4, -⟩ := scene_leases
  refine ⟨scene_scrub, by decide +kernel, ⟨_, (named_names (by decide +kernel) l4).2, rfl⟩, by decide +kernel,
    by decide +kernel, ⟨rfl, rfl⟩, ?_, ⟨_, ⟨by decide +kernel, rfl⟩, rfl⟩, by decide +kernel⟩
  unfold State.ScrubLaw; decide +kernel

/-- ClearFrees: HELD, TAINTED, and SCRUB with an ACTIVE entry that is not the oldest of the list. -/
theorem witness_ClearFrees :
    scene.ScrubLaw ∧ (∃ l, (named 0 0x0100).Names 0 0 l ∧ l.hold.state = .held) ∧
      (∃ l, (named 0 0x0104).Names 0 4 l ∧ l.hold.state = .tainted) ∧
      (∃ l, (named 0 0x0105).Names 0 5 l ∧ l.hold.state = .scrub) ∧
      ∃ older x, scene.scrub.list = older ++ x :: [] ∧ x.handle = ((named 0 0x0105).win 0).argHandle ∧
        x.state = .active 0x2002C000 := by
  obtain ⟨l0, -, -, -, l4, l5, -⟩ := scene_leases
  exact ⟨scene_scrub, ⟨_, (named_names (by decide +kernel) l0).2, rfl⟩,
    ⟨_, (named_names (by decide +kernel) l4).2, rfl⟩, ⟨_, (named_names (by decide +kernel) l5).2, rfl⟩,
    [_], _, rfl, by decide +kernel, rfl⟩

/-- The scene with a second lease in SCRUB, whose entry is QUEUED behind the ACTIVE one. -/
def queued : State :=
  let s := put 7 1 (lease (granules 56 2) (.scrub 1 1)) (named 0 0x0107)
  { s with
    scrub := { s.scrub with list := s.scrub.list ++ [{ handle := 0x0107, state := .queued 0x20038000 }] } }

/-- ClearFrees: SCRUB with a QUEUED entry. -/
theorem witness_ClearFrees_queued :
    queued.ScrubLaw ∧ (∃ l, queued.Names 0 7 l ∧ l.hold.state = .scrub) ∧
      ∃ older x, queued.scrub.list = older ++ x :: [] ∧ x.handle = (queued.win 0).argHandle ∧
        x.state = .queued 0x20038000 := by
  refine ⟨?_, ⟨_, ⟨by decide +kernel, rfl⟩, rfl⟩, [_, _], _, rfl, by decide +kernel, rfl⟩
  unfold State.ScrubLaw; decide +kernel

/-- AdoptTakesOver: SCRUB, GRACE, a quota reached and one not. -/
theorem witness_AdoptTakesOver :
    scene.Served ∧ (∃ l, (named 0 0x0104).Names 0 4 l ∧ l.hold = .tainted 2 8) ∧
      [result (.adopt 0) 0 (named 0 0x0105), result (.adopt 0) 0 (named 0 0x0103),
        result (.adopt 0) 0 (change 0 (fun x => { x with quota := 1, held := 1 }) (named 0 0x0104)),
        result (.adopt 0) 0 (change 0 (fun x => { x with quota := 1 }) (named 0 0x0104))] = [44, 29, 39, 0] := by
  obtain ⟨-, -, -, -, l4, -⟩ := scene_leases
  exact ⟨scene_served.1, ⟨_, (named_names (by decide +kernel) l4).2, rfl⟩, by decide +kernel⟩

/-- AccessUnderExclusive: the first byte of slot 0 and the last of slot 2; the owner alone, the only delegate, the owner
that has lent, and another; and the older of two delegates. -/
theorem witness_AccessUnderExclusive :
    scene.Served ∧ scene.PoolLaw ∧ scene.CoverageLaw ∧
      (∃ l, scene.Covers 0x20000000 0 l ∧ l.hold.owner? = some 1 ∧ l.hold.chain = []) ∧
      (∃ l, scene.Covers 0x20013FFF 2 l ∧ l.hold.owner? = some 2 ∧ l.hold.chain.getLast? = some 5 ∧
        (3 : Mid) ∉ l.hold.chain) ∧
      (∀ m ∈ [(1 : Mid), 2, 3, 5], (scene.master m).state ≠ .fenced) ∧
      ∃ l, (buffer [5, 6] []).Covers 0x20040000 6 l ∧ (5 : Mid) ∈ l.hold.chain ∧ l.hold.chain.getLast? ≠ some 5 := by
  obtain ⟨l0, -, l2, -⟩ := scene_leases
  refine ⟨scene_served.1, scene_pools, scene_coverage, ⟨_, ⟨l0, ?_⟩, rfl, rfl⟩, ⟨_, ⟨l2, ?_⟩, rfl, rfl, by decide⟩,
    by decide +kernel, ⟨_, ⟨rfl, ?_⟩, by decide +kernel, by decide +kernel⟩⟩ <;>
    (unfold State.Governs; decide +kernel)

/-- AccessUnderShared: a sharer and another master, in the last byte of slot 1. -/
theorem witness_AccessUnderShared :
    (∃ l, scene.Covers 0x20027FFF 1 l ∧ l.hold.mode = .shared ∧ l.hold.shares 3 = true ∧ l.hold.shares 5 = false) ∧
      ∀ j, j < 1 → ∀ l ∈ scene.lease j, ¬(l.range.covers 0 39 = true) := by
  refine ⟨⟨_, ⟨scene_leases.2.1, ?_⟩, by decide +kernel⟩, by decide +kernel⟩
  unfold State.Governs; decide +kernel

/-- AccessFencedOrTainted: the last byte of the tainted range, and the first of the one being scrubbed. -/
theorem witness_AccessFencedOrTainted :
    (scene.master 6).state = .fenced ∧ scene.Governs 0x2002BFFF 0 ∧
      (∃ l, scene.Covers 0x2002BFFF 4 l ∧ l.hold.state = .tainted) ∧
      ∃ l, scene.Covers 0x2002C000 5 l ∧ l.hold.state = .scrub := by
  obtain ⟨-, -, -, -, l4, l5, -⟩ := scene_leases
  refine ⟨by decide +kernel, ?_, ⟨_, ⟨l4, ?_⟩, rfl⟩, ⟨_, ⟨l5, ?_⟩, rfl⟩⟩ <;> (unfold State.Governs; decide +kernel)

/-- AccessOutsideLeases: the last byte of each pool under REFUSE and READ_OPEN, and under OPEN; the bytes on both sides of
the window, which no pool holds; and a reset. -/
theorem witness_AccessOutsideLeases :
    board.busHeld = false ∧ board.inReset = false ∧ board.PoolLaw ∧ (board.master 1).state ≠ .fenced ∧
      board.Governs 0x2007FFFF 0 ∧ board.Governs 0x4003FFFF 1 ∧ (∀ k, board.lease k = none) ∧
      (board.pool 0).policy = .refuse ∧ (board.pool 1).policy = .readOpen ∧
      ((board.setPool 1 { board.pool 1 with policy := .openAll }).pool 1).policy = .openAll ∧
      (0x2FFFFEFF#32).toNat < board.windowBase ∧ board.windowBase + 256 ≤ (0x30000000#32).toNat ∧
      (∀ p, ¬board.Governs 0x2FFFFEFF p ∧ ¬board.Governs 0x30000000 p) ∧
      { board with inReset := true }.inReset = true := by
  unfold State.PoolLaw State.Governs; decide +kernel

/-- RefusalReported: a count one below its threshold and two below, the supervisor's, a FENCED master's and a threshold
of 0, which fence nobody; and a count of 15. -/
theorem witness_RefusalReported :
    let n : Note := { address := 0, dir := .read, reason := .noLease, slot := none }
    let s := fun m v t st => change m (fun x => { x with violations := v, threshold := t, state := st }) board
    [((s 4 2 3 .attached).reportRefusal 4 n).fenced 4, ((s 4 1 3 .attached).reportRefusal 4 n).fenced 4,
      ((s 0 2 3 .attached).reportRefusal 0 n).fenced 0, ((s 4 14 0 .detached).reportRefusal 4 n).fenced 4] =
      [true, false, false, false] ∧
    (((s 4 15 3 .fenced).reportRefusal 4 n).master 4).violations = 15 := by decide +kernel

/-- WritesOnlyByCurrentUser: a covered and an uncovered governed address, and a write that passes. -/
theorem witness_WritesOnlyByCurrentUser :
    scene.Served ∧ scene.PoolLaw ∧ scene.Governs 0x20000000 0 ∧ scene.Governs 0x2007FFFF 0 ∧
      (after (.access 1 0x20000000 .write 4 0) scene).bus = .passed := by
  refine ⟨scene_served.1, scene_pools, ?_, ?_, by decide +kernel⟩ <;> (unfold State.Governs; decide +kernel)

/-- TicksAndWaits: a reset and none; an entry on its last tick and an empty queue. -/
theorem witness_TicksAndWaits :
    { board with inReset := true }.inReset = true ∧ scene.inReset = false ∧
      (∃ e ∈ scene.queue, e.status = .waiting 1) ∧ ∀ e ∈ board.queue, ¬(e.status = .waiting 0 ∨ e.status = .waiting 1) := by
  decide +kernel

/-- LeaseTableTick: the scene has a term on its last tick, one a tick above the warn level, a grace on its last tick, a
lease that loses one sharer and one that loses its last; closed leases; and a grace length of 0 in its variant. -/
theorem witness_LeaseTableTick :
    scene.ShapeLaw ∧ scene.time.warnLevel = 8 ∧ scene.time.graceLength = 4 ∧
      { scene with time := { scene.time with graceLength := 0 } }.ShapeLaw ∧
      (∃ l, scene.lease 0 = some l ∧ l.hold = .held 1 1 (term 20 1) []) ∧
      (∃ l, scene.lease 2 = some l ∧ l.hold = .held 2 7 (term 20 9) [5]) ∧
      (∃ l, scene.lease 3 = some l ∧ l.hold = .grace 1 2 (term 20 0 true) [] 1) ∧
      (∃ l, scene.lease 1 = some l ∧ l.hold.sharers.map (fun e => e.term.remaining) = [9, 1]) ∧
      (∃ l, scene.lease 6 = some l ∧ l.hold.sharers.map (fun e => e.term.remaining) = [1]) ∧
      (∃ l, scene.lease 5 = some l ∧ l.hold.closed = true) ∧
      ∀ k, ∀ l ∈ board.lease k, l.hold.sharers = [] := by
  obtain ⟨l0, l1, l2, l3, -, l5, l6⟩ := scene_leases
  exact ⟨scene_shape, by decide +kernel, by decide +kernel, scene_shape, ⟨_, l0, rfl⟩, ⟨_, l2, rfl⟩, ⟨_, l3, rfl⟩, ⟨_, l1, rfl⟩, ⟨_, l6, rfl⟩,
    ⟨_, l5, rfl⟩, by decide +kernel⟩

/-- ExpiryEvents: each event where its count is on the last tick, and where it is one above it. -/
theorem witness_ExpiryEvents :
    (∃ l, scene.lease 0 = some l ∧ l.hold = .held 1 1 (term 20 1) []) ∧
      (∃ l, scene.lease 3 = some l ∧ l.hold = .grace 1 2 (term 20 0 true) [] 1) ∧
      (∃ l older e, scene.lease 1 = some l ∧ l.hold = .shared (older ++ e :: []) ∧ e.master = 4 ∧
        e.term.remaining = 1 ∧ older ≠ [] ∧ ∀ x ∈ older, x.master ≠ 4) ∧
      (∃ l e, scene.lease 6 = some l ∧ l.hold = .shared ([] ++ e :: []) ∧ e.master = 3 ∧ e.term.remaining = 1) ∧
      (∃ e younger, scene.queue = [] ++ e :: younger ∧ e.claim.master = 4 ∧ e.claim.tag = 5 ∧ e.status = .waiting 1 ∧
        ∀ x ∈ younger, x.claim.master ≠ 4) ∧
      after (.termExpiry 2) scene = scene ∧ after (.graceEnd 0) scene = scene ∧
      after (.sharerExpiry 1 3) scene = scene ∧ after (.waitLimitExpiry 3 10) scene = scene ∧
      after (.termExpiry 31) (put 31 1 (lease (granules 50 1) (.held 1 1 (term 9 2) [])) board) =
        put 31 1 (lease (granules 50 1) (.held 1 1 (term 9 2) [])) board := by
  obtain ⟨l0, l1, -, l3, -, -, l6⟩ := scene_leases
  refine ⟨⟨_, l0, rfl⟩, ⟨_, l3, rfl⟩, ⟨_, [_], _, l1, rfl, rfl, rfl, by decide, by decide⟩, ⟨_, _, l6, rfl, rfl, rfl⟩,
    ⟨_, _, rfl, rfl, rfl, rfl, by decide +kernel⟩, ?_, ?_, ?_, ?_, ?_⟩ <;> decide +kernel

/-- A run of `limit` words in the scene, the word at `p` being in flight. -/
def runAt (p limit : Nat) (withdrawn : Bool) : State :=
  { scene with
    scrub :=
      { scene.scrub with
        list := [{ handle := 0x0105, state := .active p }]
        bgnt := !withdrawn
        run := some { limit := limit, words := 0, withdrawn := withdrawn }
        flight := some { address := p, data := 0 } } }

/-- RunsBeginAndAreWithdrawn: BGNT standing; BREQ not asserted; a run that begins; one with a word in flight and one with
none; and no run, with an ACTIVE entry and with none. -/
theorem witness_RunsBeginAndAreWithdrawn :
    running.scrub.bgnt = true ∧ board.scrub.bgnt = false ∧ board.scrub.breq = false ∧ scene.scrub.bgnt = false ∧
      scene.scrub.breq = true ∧ scene.scrub.run = none ∧
      (∃ y x, scene.scrub.list = [y] ++ x :: [] ∧ x.state = .active 0x2002C000 ∧ y.active = false) ∧
      running.scrub.run.isSome = true ∧ running.scrub.flight.isSome = true ∧
      (runAt 0x2002C000 2 true).scrub.bgnt = false ∧ (runAt 0x2002C000 2 true).scrub.run ≠ none ∧
      { running with scrub := { running.scrub with flight := none } }.scrub.flight = none ∧
      (∃ x ∈ scene.scrub.list, x.active = true) ∧ board.scrub.run = none ∧ ∀ x ∈ board.scrub.list, x.active = false := by
  refine ⟨rfl, rfl, rfl, rfl, rfl, rfl, ⟨_, _, rfl, rfl, rfl⟩, rfl, rfl, rfl, ?_, rfl, ?_, rfl, ?_⟩ <;> decide +kernel

/-- WordsAreAnswered: the first word of a run, of a run of one word and of a run withdrawn; the last word of the range; and
no word in flight. -/
theorem witness_WordsAreAnswered :
    (∀ p ∈ [0x2002C000, 0x2002CFFC], ∀ limit ∈ [1, 2], ∀ w : Bool, (runAt p limit w).ScrubLaw) ∧
      (∀ p limit w, ∃ x, (runAt p limit w).scrub.list = [] ++ x :: [] ∧ x.state = .active p ∧
        x.handle = (runAt p limit w).handle 5) ∧
      scene.scrub.flight = none ∧
      (∃ l, scene.lease 5 = some l ∧ l.hold = .scrub 5 3 ∧
        0x2002CFFC + 4 = (scene.pool 0).base.toNat + (l.range.first + l.range.count) * (scene.pool 0).granule.bytes) := by
  refine ⟨?_, fun p limit w => ⟨_, rfl, rfl, ?_⟩, rfl, ⟨_, scene_leases.2.2.2.2.2.1, rfl, by decide +kernel⟩⟩
  · unfold State.ScrubLaw; decide +kernel
  · show (0x0105 : Handle) = scene.handle 5
    decide +kernel

/-- ScrubHoldsBus: a run, nothing waiting, and a STATUS waiting with the bus free. -/
theorem witness_ScrubHoldsBus :
    let x := scene.windowTransaction 4 0 .write 4 0x22
    running.scrub.run ≠ none ∧ scene.held = [] ∧ scene.scrub.run = none ∧ (scene.setHeld [x]).held = x :: [] ∧
      ∃ t, exec (.access x.master x.address x.dir x.size x.data) (scene.setHeld []) = .next t :=
  ⟨by decide +kernel, rfl, rfl, rfl, _, rfl⟩

/-- An entry of master 4 that has timed out. -/
def timedOut : ClaimEntry :=
  { claim := { master := 4, tag := 1, range := granules 4 4, mode := .exclusive, term := 9 }, status := .ended }

/-- A SHARED claim of master 5 over granules 4 to 7. -/
def reader : ClaimEntry :=
  { claim := { master := 5, tag := 2, range := granules 4 4, mode := .shared, term := 9 }, status := .waiting 1 }

/-- Those two waiting, with a SHARED lease of that range in slot 0. -/
def passBoard (r : Range) : State :=
  (put 0 1 (lease r (.shared [sharer 3 1 (term 9 9)])) board).setQueue [timedOut, reader]

/-- GrantPassSettles: a queue of an ENDED entry; and a WAITING one behind it, for slot 1 to take where slot 0 overlaps its
range and for slot 0 to join where it has it. -/
theorem witness_GrantPassSettles :
    (board.setQueue [timedOut]).PassedOver [] timedOut ∧
      (∀ n ∈ [3, 4],
        (passBoard (granules n 4)).queue = [timedOut] ++ reader :: [] ∧ (passBoard (granules n 4)).PassedOver [] timedOut ∧
          ¬(passBoard (granules n 4)).PassedOver [timedOut] reader ∧ (passBoard (granules n 4)).lease 1 = none ∧
          ∀ j, j < 1 → (passBoard (granules n 4)).lease j ≠ none) ∧
      ((passBoard (granules 4 4)).lease 0).any fun l => l.hold.mode = .shared ∧ l.range = reader.claim.range := by
  refine ⟨.inl rfl, fun n h => ⟨rfl, .inl rfl, ?_, ?_, ?_⟩, by decide +kernel⟩ <;> revert n h
  · unfold State.PassedOver State.BlockedByLease State.ShortOfSlot State.LeaseBlocks; decide +kernel
  · decide +kernel
  · decide +kernel

/-- ResetValues: a reset in progress. -/
theorem witness_ResetValues :
    { board with inReset := true }.inReset = true ∧ { board with inReset := true }.busHeld = false := ⟨rfl, rfl⟩

/-- The scrub of 9.8 with its run's word at `p` in flight, an acknowledgement commanded, and a STATUS and a CLAIM of
granule 0 by master 3 waiting for the run's end. -/
def claimHeld (p : Nat) : State :=
  let s := args 3 0x0710 0x00010000 9 0 (scrubbing p 0)
  (s.setHeld [s.windowTransaction 3 0 .write 4 0x22, s.windowTransaction 3 0 .write 4 0x10]).setPending [.scrubWordAck]

/-- GenerationsCountGrants: with transactions waiting, a word acknowledged inside a run, where no generation moves; the
last word of the range, which ends the run and lets a claim take slot 0; and a tick inside a run. -/
theorem witness_GenerationsCountGrants :
    (∀ p ∈ [0x60000800, 0x600008FC],
      (claimHeld p).pending.head? = some .scrubWordAck ∧ (claimHeld p).held.length = 2 ∧ (claimHeld p).scrub.run ≠ none ∧
        (claimHeld p).lease 0 = none ∧ ∃ t, step (claimHeld p) = .next t ∧
          if p = 0x60000800 then t.scrub.run ≠ none ∧ t.slot 0 = (claimHeld p).slot 0
          else t.scrub.run = none ∧ (t.slot 0).gen = 1 ∧ t.lease 0 ≠ none ∧ t.lease 4 = none) ∧
      let s := { (claimHeld 0x60000800) with pending := [], ticks := { tableDue := 1, queueDue := 0, made := 1 } }
      s.held ≠ [] ∧ s.pending.head? = none ∧ ∃ t, step s = .next t ∧ t.scrub.run ≠ none := by
  refine ⟨fun p h => ⟨rfl, rfl, nofun, rfl, _, rfl, ?_⟩, by decide +kernel, rfl, _, rfl, by decide +kernel⟩
  revert p h; decide +kernel

/-- The statements about every step: the scene satisfies every law and takes a step, with a tick due. -/
theorem witness_steps :
    let s := { scene with ticks := { tableDue := 1, queueDue := 0, made := 1 } }
    (∃ t, step s = .next t) ∧ s.pending.head? = none ∧ s.CoverageLaw ∧ s.ShapeLaw ∧ s.QueueLaw ∧ s.QuotaLaw ∧
      s.AttachmentLaw ∧ s.ThresholdLaw ∧ s.SupervisorLaw ∧ s.PoolLaw ∧ s.RangeLaw ∧ s.ScrubLaw ∧ s.TermLaw :=
  ⟨⟨_, rfl⟩, rfl, scene_laws⟩

end Sys2Proof.Tests
end

section
/-! PROOF. CANCEL (R59): what its rule answers and leaves behind each check, and the obligation. -/

namespace Sys2Proof.Machine

/-- The entries CANCEL looks for. -/
theorem ClaimEntry.waitingOf_iff {m : Mid} {tag : Tag} {e : ClaimEntry} :
    e.waitingOf m tag = true ↔ e.isWaiting = true ∧ e.claim.master = m ∧ e.claim.tag = tag := by
  simp [ClaimEntry.waitingOf, and_assoc]

namespace State

variable {s : State} {m : Mid}

/-- A FENCED master fails the first standing check (R127). -/
theorem standing_of_fenced (h : (s.master m).state = .fenced) : s.standing m = some (.bare .fenced) := by
  simp [standing, fenced, h]

/-- A DETACHED master fails the second standing check (R127). -/
theorem standing_of_detached (h : (s.master m).state = .detached) :
    s.standing m = some (.bare .notAttached) := by
  simp [standing, fenced, attached, h]

/-- A grant pass leaves the window as it is. -/
theorem win_grantPass (s : State) : s.grantPass.win = s.win := by
  rw [grantPass_frame]; rfl

/-- What CANCEL leaves before its grant pass: the queue is `rest`, and `m` waits with one claim fewer (R59). -/
def withdrawn (s : State) (m : Mid) (rest : List ClaimEntry) : State := (s.setQueue rest).lowerWaiting m

/-- A withdrawal after the request is taken changes the queue, the master records and the window alone. -/
theorem withdrawn_takeRequest_frame (s : State) (m : Mid) (code : BitVec 8) (rest : List ClaimEntry) :
    (s.takeRequest m code).withdrawn m rest =
      { s with
        queue := rest
        masters := ((s.takeRequest m code).withdrawn m rest).masters
        window := ((s.takeRequest m code).withdrawn m rest).window } := rfl

/-- A withdrawal lowers the waiting count of its own master alone (R128). -/
theorem withdrawn_masterBecomes (s : State) (m : Mid) (rest : List ClaimEntry) :
    s.MasterBecomes (s.withdrawn m rest) m { s.master m with waiting := (s.master m).waiting - 1 } := by
  refine ⟨by simp [withdrawn], fun n hn => ?_⟩
  simp [withdrawn, hn.symm]

end State

section Rule

variable {s : State} {m : Mid}

/-- Served, CANCEL is the request of code 0x11 with its own rule. -/
theorem exec_cancel (s : State) (m : Mid) : exec (.cancel m) s = .next (s.serveRequest m 0x11 cancelRule) := rfl

/-- A CANCEL that fails a standing check changes nothing (R127). -/
theorem cancelRule_of_standing {a : Answer} (h : s.standing m = some a) : cancelRule s m = (s, a) := by
  simp [cancelRule, h]

/-- A CANCEL that names no WAITING entry of the requester is answered NO_CLAIM and changes nothing (R59). -/
theorem cancelRule_noClaim (h : s.standing m = none)
    (none_named : ∀ e ∈ s.queue, ¬e.waitingOf m (s.win m).argTag = true) :
    cancelRule s m = (s, .bare .noClaim) := by
  simp only [cancelRule, h, State.unlessRefused_none, List.find?_eq_none.2 none_named]

/-- A CANCEL that passes its checks withdraws the oldest entry it names, and a grant pass follows (R59). -/
theorem cancelRule_withdraws {older younger : List ClaimEntry} {e : ClaimEntry} (h : s.standing m = none)
    (queue : s.queue = older ++ e :: younger) (named : e.waitingOf m (s.win m).argTag = true)
    (oldest : ∀ x ∈ older, ¬x.waitingOf m (s.win m).argTag = true) :
    cancelRule s m =
      ((s.withdrawn m (older ++ younger)).grantPass, .items .ok (s.win m).argTag.toNat e.left) := by
  have found : s.queue.find? (ClaimEntry.waitingOf m (s.win m).argTag) = some e :=
    List.find?_eq_some_iff_append.2 ⟨named, older, younger, queue, by simpa using oldest⟩
  have erased : s.queue.eraseP (ClaimEntry.waitingOf m (s.win m).argTag) = older ++ younger := by
    rw [queue, List.eraseP_append_right _ oldest, List.eraseP_cons_of_pos named]
  simp only [cancelRule, h, State.unlessRefused_none, found, erased, State.withdrawn]

end Rule

end Sys2Proof.Machine

namespace Sys2Proof.Proofs

open Sys2Proof.Machine

/-- Settles O17: one case for each check of R59 in its order, and the withdrawal when all of them pass. -/
theorem cancelWithdraws : Obligations.CancelWithdraws := by
  intro s m served
  refine ⟨fun fenced => ?_, fun not_fenced => ⟨fun detached => ?_, fun not_detached => ?_⟩⟩
  · exact State.answeredOnly_of_rule served (exec_cancel s m)
      (cancelRule_of_standing (State.standing_of_fenced fenced))
  · exact State.answeredOnly_of_rule served (exec_cancel s m)
      (cancelRule_of_standing (State.standing_of_detached detached))
  have attached : (s.master m).state = .attached := by
    cases state : (s.master m).state with
    | attached => rfl
    | fenced => exact absurd state not_fenced
    | detached => exact absurd state not_detached
  have passes : (s.takeRequest m 0x11).standing m = none := State.standing_of_attached attached
  refine ⟨fun none_named => ?_, fun _ older e younger queue named oldest => ?_⟩
  · exact State.answeredOnly_of_rule served (exec_cancel s m)
      (cancelRule_noClaim passes (by simpa [ClaimEntry.waitingOf_iff] using none_named))
  · have rule := cancelRule_withdraws passes queue (by simpa [ClaimEntry.waitingOf_iff] using named)
      (by simpa [ClaimEntry.waitingOf_iff] using oldest)
    rw [State.argTag_takeRequest] at rule
    obtain ⟨frame, answered⟩ := State.serveRequest_answered served rule (State.win_grantPass _)
    exact ⟨_, _, exec_cancel s m, frame, State.withdrawn_takeRequest_frame s m 0x11 _, rfl,
      State.withdrawn_masterBecomes (s.takeRequest m 0x11) m _, answered⟩

end Sys2Proof.Proofs
end

section
/-! PROOF. The checks of the six requests of Section 5 (R88, R92, R94, R98, R100, R102). A request's refusal is read off
as the rows its rule tests, `FirstOf` those rows; that the refusal decides the outcome, and the entry checks in front of
it, are said once for all six. -/

namespace Sys2Proof.Machine

/-! ### Rows of checks -/

namespace State

/-- What the rows' answers and the case behind them imply may stand in their place. -/
theorem FirstOf.mono {rows : List (Prop × Answer)} {answer answer' : Answer → Prop} {otherwise otherwise' : Prop}
    (first : FirstOf rows answer otherwise) (answers : ∀ a, answer a → answer' a) (last : otherwise → otherwise') :
    FirstOf rows answer' otherwise' := by
  induction rows with
  | nil => exact last first
  | cons row rows ih =>
    obtain ⟨here, later⟩ := first
    exact ⟨fun c => answers _ (here c), fun c => ih (later c)⟩

/-- A refusal that tests a condition first has that condition as its first row, and past all rows it is `last`. -/
theorem firstOf_ite {p c : Prop} [Decidable c] {a : Answer} {refusal last : Option Answer}
    {rows : List (Prop × Answer)} (row : p ↔ c) (rest : FirstOf rows (refusal = some ·) (refusal = last)) :
    FirstOf ((p, a) :: rows) ((if c then some a else refusal) = some ·)
      ((if c then some a else refusal) = last) := by
  refine ⟨fun h => if_pos (row.1 h), fun h => ?_⟩
  rw [if_neg (mt row.2 h)]
  exact rest

/-! ### What a refusal decides -/

/-- The refusal decides the request: it is the answer and nothing changes, or there is none and the request completes
with OK. -/
structure DecidedBy (s : State) (r : Request) (m : Mid) (refusal : Option Answer) : Prop where
  refused : ∀ a, refusal = some a → s.AnsweredOnly (r.command m) m r.code a
  accepted : refusal = none → s.CompletesOk (r.command m) m

variable {s : State} {m : Mid} {r : Request}

/-- The rows of the refusal that decides a request are the rows of the request. -/
theorem DecidedBy.firstOf {refusal : Option Answer} {rows : List (Prop × Answer)}
    (decided : s.DecidedBy r m refusal) (first : FirstOf rows (refusal = some ·) (refusal = none)) :
    FirstOf rows (s.AnsweredOnly (r.command m) m r.code) (s.CompletesOk (r.command m) m) :=
  first.mono decided.refused decided.accepted

/-- A served request whose rule answers OK completes with OK. -/
theorem completesOk_of_rule {c : Instr} {code : BitVec 8} {body : State → Mid → State × Answer} (served : s.Served)
    (runs : exec c s = .next (s.serveRequest m code body))
    (ok : (body (s.takeRequest m code) m).2.result = .ok) : s.CompletesOk c m := by
  obtain ⟨noReset, busFree⟩ := served
  refine ⟨_, runs, ?_⟩
  rw [serveRequest_of_served s busFree noReset, win_setBus, win_answer, if_pos rfl, ok]

/-- A master neither FENCED nor DETACHED is ATTACHED (R126). -/
theorem state_attached_of_not (notFenced : (s.master m).state ≠ .fenced)
    (notDetached : (s.master m).state ≠ .detached) : (s.master m).state = .attached := by
  cases state : (s.master m).state with
  | attached => rfl
  | fenced => exact absurd state notFenced
  | detached => exact absurd state notDetached

/-- A handle that passes its check names a lease (R22). -/
theorem exists_names_of_not_namesNothing (found : ¬s.NamesNothing m) : ∃ k l, s.Names m k l := by
  obtain ⟨⟨k, l⟩, lookup⟩ := Option.ne_none_iff_exists'.1 (mt (lookup_eq_none_iff m).1 found)
  exact ⟨k, l, (lookup_eq_some s).1 lookup⟩

/-- The request is one of Section 5 with that refusal: its rule makes the standing checks and the handle check, refuses
on the lease named as `refusal` says, given the state the rule runs in and the handle, and else answers OK. -/
structure RunsChecks (r : Request) (m : Mid) (refusal : State → Handle → SlotIx → Lease → Option Answer)
    (body : State → Mid → State × Answer) (done : State → SlotIx → Lease → State × Answer) : Prop where
  runs : ∀ s, exec (r.command m) s = .next (s.serveRequest m r.code body)
  rule : ∀ u : State,
    let h := (u.win m).argHandle
    body u m =
      u.onLease (u.standing m) h (u.staleAnswer h) fun k l => u.unlessRefused (refusal u h k l) (done u k l)
  ok : ∀ u k l, (done u k l).2.result = .ok

namespace RunsChecks

variable {refusal : State → Handle → SlotIx → Lease → Option Answer} {body : State → Mid → State × Answer}
  {done : State → SlotIx → Lease → State × Answer}

/-- Once the entry checks pass, the request is decided by its refusal on the lease it names. -/
theorem decidedBy {k : SlotIx} {l : Lease} (checks : RunsChecks r m refusal body done) (served : s.Served)
    (attached : (s.master m).state = .attached) (names : s.Names m k l) :
    s.DecidedBy r m (refusal (s.takeRequest m r.code) (s.win m).argHandle k l) := by
  have reached : body (s.takeRequest m r.code) m =
      (s.takeRequest m r.code).unlessRefused (refusal (s.takeRequest m r.code) (s.win m).argHandle k l)
        (done (s.takeRequest m r.code) k l) := by
    rw [checks.rule, standing_takeRequest, standing_of_attached attached, argHandle_takeRequest]
    exact onLease_found _ (lookup_of_names names)
  constructor
  · intro a refused
    exact answeredOnly_of_rule served (checks.runs s) (by rw [reached, refused, unlessRefused_some])
  · intro accepted
    exact completesOk_of_rule served (checks.runs s) (by rw [reached, accepted, unlessRefused_none, checks.ok])

/-- The entry rows hold of the request, and behind them what its refusal decides. -/
theorem lendingEntry {named : SlotIx → Lease → Prop} (checks : RunsChecks r m refusal body done) (served : s.Served)
    (decided : ∀ k l, s.DecidedBy r m (refusal (s.takeRequest m r.code) (s.win m).argHandle k l) → named k l) :
    s.LendingEntry r m named := by
  have stops {a : Answer} (standing : s.standing m = some a) : s.AnsweredOnly (r.command m) m r.code a :=
    answeredOnly_of_rule served (checks.runs s)
      (by rw [checks.rule, standing_takeRequest, standing, onLease_standing])
  refine ⟨fun fenced => stops (standing_of_fenced fenced), fun notFenced =>
    ⟨fun detached => stops (standing_of_detached detached), fun notDetached => ?_⟩⟩
  have attached := state_attached_of_not notFenced notDetached
  refine ⟨fun nothing => answeredOnly_of_rule served (checks.runs s) ?_, fun found => ?_⟩
  · rw [checks.rule, standing_takeRequest, standing_of_attached attached, argHandle_takeRequest]
    exact onLease_stale _ ((lookup_eq_none_iff m).2 nothing)
  · obtain ⟨k, l, names⟩ := exists_names_of_not_namesNothing found
    exact ⟨k, l, names, decided k l (checks.decidedBy served attached names)⟩

end RunsChecks

/-! ### Other leases over a range (R94) -/

/-- The lease of slot `j`, another than `k`, overlaps the range of `l`. -/
def OverlapsBeside (s : State) (k : SlotIx) (l : Lease) (j : SlotIx) : Prop :=
  j ≠ k ∧ ∃ l', s.lease j = some l' ∧ l'.range.overlaps l.range = true

/-- The test of one slot in the search for an overlap. -/
theorem overlapsBeside_iff {k : SlotIx} {l : Lease} {j : SlotIx} :
    (decide (j ≠ k) && (s.lease j).any fun l' => l'.range.overlaps l.range) = true ↔ s.OverlapsBeside k l j := by
  simp [OverlapsBeside, Option.any_eq_true]

/-- The lowest slot that overlaps is the one UPGRADE finds. -/
theorem otherOverlap_of_lowest {k : SlotIx} {l : Lease} {j : SlotIx} (overlaps : s.OverlapsBeside k l j)
    (lowest : ∀ i, i < j → ¬s.OverlapsBeside k l i) : s.otherOverlap k l = some j := by
  simp only [otherOverlap, allSlots, List.finRange, List.find?_ofFn_eq_some]
  exact ⟨overlapsBeside_iff.2 overlaps, j, rfl, fun i hi => mt overlapsBeside_iff.1 (lowest i hi)⟩

/-- Without a slot that overlaps UPGRADE finds none. -/
theorem otherOverlap_of_none {k : SlotIx} {l : Lease} (alone : ∀ j, ¬s.OverlapsBeside k l j) :
    s.otherOverlap k l = none :=
  List.find?_eq_none.2 fun j _ => mt overlapsBeside_iff.1 (alone j)

end State

/-! ### The rows of each refusal -/

open State

/-- TAINTED and SCRUB are the closed states. -/
theorem Hold.closed_iff {h : Hold} : h.state = .tainted ∨ h.state = .scrub ↔ h.closed = true := by
  cases h <;> simp [Hold.state, Hold.closed]

/-- The owner of an EXCLUSIVE lease and a sharer of a SHARED one are who RELEASE takes for a holder; in each mode the
other clause of the test is void. -/
theorem Hold.not_holder_iff {h : Hold} {m : Mid} :
    ¬(h.owner? = some m ∨ h.shares m = true) ↔
      h.mode = .exclusive ∧ h.owner? ≠ some m ∨ h.mode = .shared ∧ h.shares m = false := by
  cases h <;> simp [Hold.owner?, Hold.shares, Hold.sharers, Hold.mode]

/-- The rows of R88. Rows 5 and 6 are one test of the rule with one answer. -/
theorem releaseRefusal_rows (m : Mid) (h : Handle) (l : Lease) :
    FirstOf
      [ (l.hold.state = .tainted ∨ l.hold.state = .scrub, heldAnswer .wrongState h l),
        (l.hold.mode = .exclusive ∧ l.hold.owner? ≠ some m, heldAnswer .notOwner h l),
        (l.hold.mode = .shared ∧ l.hold.shares m = false, heldAnswer .notOwner h l),
        (l.hold.chain ≠ [], lentAnswer h l) ]
      (releaseRefusal m h l = some ·) (releaseRefusal m h l = none) := by
  refine firstOf_ite Hold.closed_iff
    ⟨fun notOwner => if_pos (Hold.not_holder_iff.2 (.inl notOwner)), fun owner =>
      ⟨fun notSharer => if_pos (Hold.not_holder_iff.2 (.inr notSharer)), fun sharer => ?_⟩⟩
  rw [if_neg (mt Hold.not_holder_iff.1 (not_or.2 ⟨owner, sharer⟩))]
  exact firstOf_ite Iff.rfl rfl

/-- The rows of R92. -/
theorem downgradeRefusal_rows (m : Mid) (h : Handle) (l : Lease) :
    FirstOf
      [ (l.hold.mode = .shared, heldAnswer .wrongMode h l), (l.hold.state ≠ .held, heldAnswer .wrongState h l),
        (l.hold.owner? ≠ some m, heldAnswer .notOwner h l), (l.hold.chain ≠ [], lentAnswer h l) ]
      (downgradeRefusal m h l = some ·) (downgradeRefusal m h l = none) :=
  firstOf_ite Iff.rfl <| firstOf_ite Iff.rfl <| firstOf_ite Iff.rfl <| firstOf_ite Iff.rfl rfl

/-- The last check of R94: CONFLICT with the slot that overlaps. -/
def conflictRefusal (h : Handle) (other : Option SlotIx) : Option Answer :=
  other.map fun j => .items .conflict h.toNat j.val

/-- The rows of R94, and behind them its check of the other leases. -/
theorem upgradeRefusal_rows (s : State) (m : Mid) (h : Handle) (k : SlotIx) (l : Lease) :
    FirstOf
      [ (l.hold.mode = .exclusive, heldAnswer .wrongMode h l), (l.hold.shares m = false, heldAnswer .notOwner h l),
        (∃ e ∈ l.hold.sharers, e.master ≠ m, .items .sharedBusy h.toNat l.hold.sharers.length) ]
      (upgradeRefusal s m h k l = some ·)
      (upgradeRefusal s m h k l = conflictRefusal h (s.otherOverlap k l)) := by
  refine firstOf_ite Iff.rfl <| firstOf_ite (by simp) <| firstOf_ite (by simp) ?_
  cases s.otherOverlap k l <;> rfl

/-- The rows of R98. -/
theorem lendRefusal_rows (s : State) (m d : Mid) (h : Handle) (l : Lease) :
    FirstOf
      [ (l.hold.mode = .shared, heldAnswer .wrongMode h l), (l.hold.state ≠ .held, heldAnswer .wrongState h l),
        (l.hold.currentUser? ≠ some m, .items .notUser h.toNat l.hold.userItem),
        ((s.master d).state ≠ .attached, .items .badMaster h.toNat d.val),
        (l.hold.owner? = some d ∨ d ∈ l.hold.chain, .items .inChain h.toNat d.val),
        (3 ≤ l.hold.chain.length, .items .depth h.toNat l.hold.chain.length) ]
      (lendRefusal s m d h l = some ·) (lendRefusal s m d h l = none) :=
  firstOf_ite Iff.rfl <| firstOf_ite Iff.rfl <| firstOf_ite Iff.rfl <|
    firstOf_ite (by simp [State.attached]) <| firstOf_ite Iff.rfl <| firstOf_ite Iff.rfl rfl

/-- The rows of R100. -/
theorem returnRefusal_rows (m : Mid) (h : Handle) (l : Lease) :
    FirstOf
      [ (l.hold.mode = .shared, heldAnswer .wrongMode h l),
        (l.hold.state = .tainted ∨ l.hold.state = .scrub, heldAnswer .wrongState h l),
        (l.hold.chain = [], heldAnswer .notLent h l),
        (l.hold.chain.getLast? ≠ some m, .items .notUser h.toNat l.hold.userItem) ]
      (returnRefusal m h l = some ·) (returnRefusal m h l = none) :=
  firstOf_ite Iff.rfl <| firstOf_ite Hold.closed_iff <| firstOf_ite Iff.rfl <| firstOf_ite Iff.rfl rfl

/-- The rows of R102. -/
theorem recallRefusal_rows (m : Mid) (h : Handle) (l : Lease) :
    FirstOf
      [ (l.hold.mode = .shared, heldAnswer .wrongMode h l),
        (l.hold.state = .tainted ∨ l.hold.state = .scrub, heldAnswer .wrongState h l),
        (l.hold.owner? ≠ some m, heldAnswer .notOwner h l), (l.hold.chain = [], heldAnswer .notLent h l) ]
      (recallRefusal m h l = some ·) (recallRefusal m h l = none) :=
  firstOf_ite Iff.rfl <| firstOf_ite Hold.closed_iff <| firstOf_ite Iff.rfl <| firstOf_ite Iff.rfl rfl

/-! ### The six requests run their checks -/

/-- RELEASE refuses as R88 says. -/
theorem release_runsChecks (m : Mid) :
    ∃ done, RunsChecks .release m (fun _ h _ l => releaseRefusal m h l) releaseRule done :=
  ⟨_, fun _ => rfl, fun _ => rfl, fun _ _ _ => rfl⟩

/-- DOWNGRADE refuses as R92 says. -/
theorem downgrade_runsChecks (m : Mid) :
    ∃ done, RunsChecks .downgrade m (fun _ h _ l => downgradeRefusal m h l) downgradeRule done :=
  ⟨_, fun _ => rfl, fun _ => rfl, fun _ _ _ => rfl⟩

/-- UPGRADE refuses as R94 says. -/
theorem upgrade_runsChecks (m : Mid) :
    ∃ done, RunsChecks .upgrade m (fun u h k l => upgradeRefusal u m h k l) upgradeRule done :=
  ⟨_, fun _ => rfl, fun _ => rfl, fun _ _ _ => rfl⟩

/-- LEND refuses as R98 says. -/
theorem lend_runsChecks (m : Mid) :
    ∃ done, RunsChecks .lend m (fun u h _ l => lendRefusal u m (u.win m).argDelegate h l) lendRule done :=
  ⟨_, fun _ => rfl, fun _ => rfl, fun _ _ _ => rfl⟩

/-- RETURN refuses as R100 says. -/
theorem giveBack_runsChecks (m : Mid) :
    ∃ done, RunsChecks .giveBack m (fun _ h _ l => returnRefusal m h l) returnRule done :=
  ⟨_, fun _ => rfl, fun _ => rfl, fun _ _ _ => rfl⟩

/-- RECALL refuses as R102 says. -/
theorem recall_runsChecks (m : Mid) :
    ∃ done, RunsChecks .recall m (fun _ h _ l => recallRefusal m h l) recallRule done :=
  ⟨_, fun _ => rfl, fun _ => rfl, fun _ _ _ => rfl⟩

end Sys2Proof.Machine

namespace Sys2Proof.Proofs

open Sys2Proof.Machine

/-- Settles O20: the entry rows, then the rows of R88. -/
theorem releaseChecks : Obligations.ReleaseChecks := by
  intro s m served
  obtain ⟨_, checks⟩ := release_runsChecks m
  exact checks.lendingEntry served fun _ l decided => decided.firstOf (releaseRefusal_rows m _ l)

/-- Settles O21: the entry rows, then the rows of R92 and of R94; the CONFLICT of R94 carries the slot the search of the
lease table finds. -/
theorem modeChangeChecks : Obligations.ModeChangeChecks := by
  intro s m served
  obtain ⟨_, downgrades⟩ := downgrade_runsChecks m
  obtain ⟨_, upgrades⟩ := upgrade_runsChecks m
  refine ⟨downgrades.lendingEntry served fun _ l decided => decided.firstOf (downgradeRefusal_rows m _ l),
    upgrades.lendingEntry served fun k l decided => ?_⟩
  refine (upgradeRefusal_rows _ m _ k l).mono decided.refused fun conflict =>
    ⟨fun j other lowest => ?_, fun alone => ?_⟩
  · have found : (s.takeRequest m 0x15).otherOverlap k l = some j := State.otherOverlap_of_lowest other lowest
    exact decided.refused _ (conflict.trans (congrArg _ found))
  · have found : (s.takeRequest m 0x15).otherOverlap k l = none := State.otherOverlap_of_none alone
    exact decided.accepted (conflict.trans (congrArg _ found))

/-- Settles O22: the entry rows, then the rows of R98, R100 and R102. -/
theorem lendingChecks : Obligations.LendingChecks := by
  intro s m served
  obtain ⟨_, lends⟩ := lend_runsChecks m
  obtain ⟨_, returns⟩ := giveBack_runsChecks m
  obtain ⟨_, recalls⟩ := recall_runsChecks m
  refine ⟨lends.lendingEntry served fun _ l decided => ?_,
    returns.lendingEntry served fun _ l decided => decided.firstOf (returnRefusal_rows m _ l),
    recalls.lendingEntry served fun _ l decided => decided.firstOf (recallRefusal_rows m _ l)⟩
  rw [State.argDelegate_takeRequest] at decided
  exact decided.firstOf (lendRefusal_rows _ m _ _ l)

end Sys2Proof.Proofs
end

section
/-! PROOF. The access judge (Section 6): where an access lands, what the lease search finds there, and the verdicts that
follow; then the handling of a refusal report, and the obligations. -/

namespace Sys2Proof.Machine

/-! ### Where an address lies (R4, R5) -/

/-- A granule has bytes (Table 1-2). -/
theorem GranuleSize.bytes_pos (g : GranuleSize) : 0 < g.bytes := by cases g <;> simp [GranuleSize.bytes]

/-- Two spans with a byte in common meet. -/
theorem spansMeet_of_mem {b t b' t' x : Nat} (low : b ≤ x) (high : x < t) (low' : b' ≤ x) (high' : x < t') :
    spansMeet b t b' t' = true := by
  simp only [spansMeet, Bool.and_eq_true, decide_eq_true_eq]
  omega

/-- The granule of an address is in a range exactly when the bytes of the range hold the address. -/
theorem Pool.granuleOf_in_range_iff {x : Pool} {r : Range} {a : Word} (low : x.base.toNat ≤ a.toNat) :
    r.first ≤ x.granuleOf a ∧ x.granuleOf a < r.first + r.count ↔
      x.spanStart r ≤ a.toNat ∧ a.toNat < x.spanEnd r := by
  have bytes := x.granule.bytes_pos
  simp only [Pool.granuleOf, Pool.spanStart, Pool.spanEnd, Nat.le_div_iff_mul_le bytes, Nat.div_lt_iff_lt_mul bytes]
  omega

/-- Two ranges that cover one granule overlap (R5). -/
theorem Range.overlaps_of_covers {r q : Range} {p : PoolIx} {g : Nat} (covers : r.covers p g = true)
    (covers' : q.covers p g = true) : r.overlaps q = true := by
  simp only [Range.covers, Range.overlaps, Bool.and_eq_true, decide_eq_true_eq] at *
  obtain ⟨⟨rfl, _⟩, _⟩ := covers
  obtain ⟨⟨samePool, _⟩, _⟩ := covers'
  exact ⟨samePool.symm, by omega⟩

/-! ### Kinds of hold and roles (2.5) -/

namespace Hold

variable {h : Hold} {m o : Mid}

/-- A hold is closed, EXCLUSIVE in HELD or GRACE, or SHARED. -/
theorem closed_or_live_or_shared (h : Hold) : h.closed = true ∨ h.live = true ∨ h.mode = .shared := by
  cases h <;> simp [closed, live, mode]

/-- A hold with an owner is EXCLUSIVE in HELD or GRACE (R27). -/
theorem kind_of_owner (owner : h.owner? = some o) : h.mode = .exclusive ∧ h.closed = false ∧ h.live = true := by
  cases h <;> simp_all [owner?, mode, closed, live]

/-- EXCLUSIVE in HELD or GRACE there is an owner (R27). -/
theorem exists_owner_of_live (live : h.live = true) : ∃ o, h.owner? = some o := by
  cases h <;> simp_all [owner?, Hold.live]

/-- A SHARED hold is neither closed nor EXCLUSIVE. -/
theorem kind_of_shared (shared : h.mode = .shared) : h.closed = false ∧ h.live = false := by
  cases h <;> simp_all [mode, closed, live]

/-- The rows of Table 2-5 for a lease with the owner `o`. -/
theorem role_of_owner (owner : h.owner? = some o) :
    h.role m =
      if m = o then if h.chain = [] then .ownerUser else .ownerLent
      else if h.chain.getLast? = some m then .lastDelegate
      else if m ∈ h.chain then .delegateLentOn
      else .outsider := by
  cases h with
  | held o' _ _ c => cases owner; rfl
  | grace o' _ _ c _ => cases owner; rfl
  | tainted | scrub | shared => cases owner

/-- The master that Table 6-3 passes is the current user (R28). -/
theorem currentUser_of_roleVerdict_pass {k : SlotIx} (live : h.live = true)
    (pass : roleVerdict k (h.role m) = .pass) : h.currentUser? = some m := by
  obtain ⟨o, owner⟩ := exists_owner_of_live live
  rw [role_of_owner owner] at pass
  simp only [currentUser?, owner]
  by_cases self : m = o
  · by_cases unlent : h.chain = []
    · simp [unlent, self]
    · simp [self, unlent, roleVerdict] at pass
  · by_cases last : h.chain.getLast? = some m
    · simp [last]
    · by_cases delegate : m ∈ h.chain <;> simp [self, last, delegate, roleVerdict] at pass

end Hold

/-- Of the default policies OPEN alone passes a write (Table 1-4). -/
theorem policyVerdict_write_pass {policy : Policy} (pass : policyVerdict policy .write = .pass) :
    policy = .openAll := by
  cases policy <;> simp_all [policyVerdict]

namespace State

variable {s : State} {a : Word} {p : PoolIx} {k : SlotIx} {l : Lease} {m : Mid} {dir : Direction}

/-! ### The pool law at an address (R12) -/

/-- One pool at most governs an address. -/
theorem PoolLaw.governs_unique (pools : s.PoolLaw) {q : PoolIx} (governs : s.Governs a p) (governs' : s.Governs a q) :
    q = p := by
  obtain ⟨enabled, low, high⟩ := governs
  obtain ⟨enabled', low', high'⟩ := governs'
  by_contra other
  have apart := (pools p enabled).2 q other enabled'
  rw [spansMeet_of_mem low high low' high'] at apart
  cases apart

/-- A governed address is outside the window. -/
theorem PoolLaw.windowOffset_eq_none (pools : s.PoolLaw) (governs : s.Governs a p) : s.windowOffset a = none := by
  obtain ⟨enabled, low, high⟩ := governs
  rw [windowOffset_eq_none_iff]
  by_contra inWindow
  have apart := (pools p enabled).1
  rw [meetsWindow, spansMeet_of_mem low high (by omega) (by omega)] at apart
  cases apart

/-- The judge finds the one pool that governs an address (R6). -/
theorem PoolLaw.governed_eq (pools : s.PoolLaw) (governs : s.Governs a p) :
    s.governed a = some (p, (s.pool p).granuleOf a) := by
  have found : allPools.find? (fun q => (s.pool q).enabled && (s.pool q).contains a) = some p := by
    cases search : allPools.find? fun q => (s.pool q).enabled && (s.pool q).contains a with
    | none =>
      have missed := List.find?_eq_none.1 search p (List.mem_finRange p)
      exact absurd governs (by simpa [Governs, Pool.contains] using missed)
    | some q =>
      have governs' : s.Governs a q := by simpa [Governs, Pool.contains] using List.find?_some search
      rw [pools.governs_unique governs governs']
  rw [governed, found, Option.map_some]

/-! ### Covering leases (R24, R26) -/

/-- The leases that cover a governed address are those whose range has its granule. -/
theorem PoolLaw.covers_iff (pools : s.PoolLaw) (governs : s.Governs a p) :
    s.Covers a k l ↔ s.lease k = some l ∧ l.range.covers p ((s.pool p).granuleOf a) = true := by
  simp only [Range.covers, Bool.and_eq_true, decide_eq_true_eq, and_assoc]
  constructor
  · rintro ⟨lease, governs', span⟩
    have samePool := pools.governs_unique governs governs'
    exact ⟨lease, samePool, (Pool.granuleOf_in_range_iff governs.2.1).2 (samePool ▸ span)⟩
  · rintro ⟨lease, rfl, inRange⟩
    exact ⟨lease, governs, (Pool.granuleOf_in_range_iff governs.2.1).1 inRange⟩

/-- The search for a covering lease finds the lowest slot of those that satisfy `f`. -/
theorem PoolLaw.covering_eq_some (pools : s.PoolLaw) (governs : s.Governs a p) {f : Hold → Bool} :
    s.covering p ((s.pool p).granuleOf a) f = some k ↔
      (∃ l, s.Covers a k l ∧ f l.hold = true) ∧ ∀ j < k, ∀ l, s.Covers a j l → f l.hold = false := by
  simp [covering, findLease_eq_some, pools.covers_iff governs, and_assoc]

/-- The search finds none when no covering lease satisfies `f`. -/
theorem PoolLaw.covering_eq_none (pools : s.PoolLaw) (governs : s.Governs a p) {f : Hold → Bool} :
    s.covering p ((s.pool p).granuleOf a) f = none ↔ ∀ k l, s.Covers a k l → f l.hold = false := by
  simp [covering, findLease_eq_none, pools.covers_iff governs]

/-- Two leases that cover one address are one, or both are SHARED (R26). -/
theorem CoverageLaw.same_or_shared (coverage : s.CoverageLaw) (pools : s.PoolLaw) {j : SlotIx} {l' : Lease}
    (covers : s.Covers a k l) (covers' : s.Covers a j l') :
    (j = k ∧ l' = l) ∨ (l.hold.mode = .shared ∧ l'.hold.mode = .shared) := by
  have governs := covers.2.1
  obtain ⟨lease, granule⟩ := (pools.covers_iff governs).1 covers
  obtain ⟨lease', granule'⟩ := (pools.covers_iff governs).1 covers'
  by_cases same : k = j
  · subst same
    exact .inl ⟨rfl, Option.some.inj (lease'.symm.trans lease)⟩
  · obtain ⟨shared, shared', _⟩ := coverage k j l lease l' lease' same (Range.overlaps_of_covers granule granule')
    exact .inr ⟨shared, shared'⟩

/-! ### What becomes of an access (R108, R118, R119) -/

/-- A served access to a governed address is judged. -/
theorem exec_access_of_governs (served : s.Served) (pools : s.PoolLaw) (governs : s.Governs a p) {size : Nat}
    {data : Word} : exec (.access m a dir size data) s = .next (s.judge m a dir) := by
  obtain ⟨noReset, busFree⟩ := served
  change Host.Outcome.next (s.transact m a dir size data) = _
  simp [transact, pools.windowOffset_eq_none governs, busFree, noReset]

/-- An access with the verdict PASS goes on to its target. -/
theorem passes_of_verdict (served : s.Served) (pools : s.PoolLaw) (governs : s.Governs a p) {size : Nat} {data : Word}
    (pass : s.verdict m a dir = .pass) : s.Passes (.access m a dir size data) := by
  rw [Passes, exec_access_of_governs served pools governs, judge, pass]
  rfl

/-- An access with a refusal for its verdict is refused so. -/
theorem refuses_of_verdict (served : s.Served) (pools : s.PoolLaw) (governs : s.Governs a p) {size : Nat} {data : Word}
    {r : Reason} {slot : Option SlotIx} (refused : s.verdict m a dir = .refuse r slot) :
    s.Refuses m a dir size data r slot := by
  rw [Refuses, exec_access_of_governs served pools governs, judge, refused]
  rfl

/-- The judge passes an access only by the verdict PASS. -/
theorem verdict_pass_of_judge (passed : (s.judge m a dir).bus = .passed) : s.verdict m a dir = .pass := by
  cases verdict : s.verdict m a dir with
  | pass => rfl
  | refuse r slot => simp [judge, verdict] at passed

/-! ### The rows of Table 6-2 -/

section Rows

variable {g : Nat}

/-- A granule under a closed lease (row 2). -/
theorem granuleVerdict_of_closed (closed : s.covering p g Hold.closed = some k) :
    s.granuleVerdict m p g dir = .refuse .tainted (some k) := by
  simp [granuleVerdict, closed]

/-- A granule under an EXCLUSIVE lease in HELD or GRACE (row 3). -/
theorem granuleVerdict_of_live (noClosed : s.covering p g Hold.closed = none)
    (live : s.covering p g Hold.live = some k) (lease : s.lease k = some l) :
    s.granuleVerdict m p g dir = roleVerdict k (l.hold.role m) := by
  simp [granuleVerdict, noClosed, live, lease]

/-- A granule under SHARED leases (row 4). -/
theorem granuleVerdict_of_shared (noClosed : s.covering p g Hold.closed = none)
    (noLive : s.covering p g Hold.live = none) (shared : (s.covering p g fun h => h.mode = .shared) = some k) :
    s.granuleVerdict m p g dir = s.sharedVerdict m p g dir k := by
  simp [granuleVerdict, noClosed, noLive, shared]

/-- A granule that no lease covers (row 5). -/
theorem granuleVerdict_of_uncovered (noClosed : s.covering p g Hold.closed = none)
    (noLive : s.covering p g Hold.live = none) (noShared : (s.covering p g fun h => h.mode = .shared) = none) :
    s.granuleVerdict m p g dir = policyVerdict (s.pool p).policy dir := by
  simp [granuleVerdict, noClosed, noLive, noShared]

/-- A sharer of a covering lease reads (R115). -/
theorem sharedVerdict_read_of_sharer {j : SlotIx} (found : (s.covering p g fun h => h.shares m) = some j) :
    s.sharedVerdict m p g .read k = .pass := by
  simp [sharedVerdict, found]

/-- A sharer's writes are refused with READ_ONLY (R115). -/
theorem sharedVerdict_write_of_sharer {j : SlotIx} (found : (s.covering p g fun h => h.shares m) = some j) :
    s.sharedVerdict m p g .write k = .refuse .readOnly (some j) := by
  simp [sharedVerdict, found]

/-- A master that shares no covering lease is refused in both directions (R115). -/
theorem sharedVerdict_of_outsider (notFound : (s.covering p g fun h => h.shares m) = none) :
    s.sharedVerdict m p g dir k = .refuse .notHolder (some k) := by
  simp [sharedVerdict, notFound]

/-- No SHARED lease passes a write (R115). -/
theorem sharedVerdict_write_ne_pass : s.sharedVerdict m p g .write k ≠ .pass := by
  cases found : s.covering p g fun h => h.shares m with
  | some j => simp [sharedVerdict_write_of_sharer found]
  | none => simp [sharedVerdict_of_outsider found]

end Rows

/-- The verdict on a governed address: FENCED first, then the granule. -/
theorem verdict_of_governs (pools : s.PoolLaw) (governs : s.Governs a p) :
    s.verdict m a dir =
      if (s.master m).state = .fenced then .refuse .fenced none
      else s.granuleVerdict m p ((s.pool p).granuleOf a) dir := by
  simp [verdict, pools.governed_eq governs, fenced]

/-- Under a lease with an owner the verdict goes by the role in it (R114). -/
theorem verdict_under_exclusive (pools : s.PoolLaw) (coverage : s.CoverageLaw)
    (notFenced : (s.master m).state ≠ .fenced) (covers : s.Covers a k l) {o : Mid} (owner : l.hold.owner? = some o) :
    s.verdict m a dir = roleVerdict k (l.hold.role m) := by
  have governs := covers.2.1
  obtain ⟨exclusive, notClosed, live⟩ := Hold.kind_of_owner owner
  have alone : ∀ j l', s.Covers a j l' → j = k ∧ l' = l := fun j l' covers' =>
    (coverage.same_or_shared pools covers covers').resolve_right fun ⟨shared, _⟩ => by simp [exclusive] at shared
  have noClosed := (pools.covering_eq_none governs (f := Hold.closed)).2 fun j l' covers' => by
    obtain ⟨_, rfl⟩ := alone j l' covers'
    exact notClosed
  have found := (pools.covering_eq_some governs (f := Hold.live) (k := k)).2
    ⟨⟨l, covers, live⟩, fun j lower l' covers' => absurd (alone j l' covers').1 (ne_of_lt lower)⟩
  rw [verdict_of_governs pools governs, if_neg notFenced, granuleVerdict_of_live noClosed found covers.1]

/-- Under SHARED leases the verdict is the one of R115, given the lowest slot of those that cover the address. -/
theorem verdict_under_shared (pools : s.PoolLaw) (coverage : s.CoverageLaw) (notFenced : (s.master m).state ≠ .fenced)
    (covers : s.Covers a k l) (shared : l.hold.mode = .shared) :
    ∃ j, (∃ l', s.Covers a j l') ∧ (∀ i < j, ∀ l', ¬s.Covers a i l') ∧
      s.verdict m a dir = s.sharedVerdict m l.range.pool ((s.pool l.range.pool).granuleOf a) dir j := by
  have governs := covers.2.1
  have allShared : ∀ j l', s.Covers a j l' → l'.hold.mode = .shared := fun j l' covers' => by
    rcases coverage.same_or_shared pools covers covers' with ⟨_, rfl⟩ | ⟨_, shared'⟩
    · exact shared
    · exact shared'
  have noClosed := (pools.covering_eq_none governs (f := Hold.closed)).2 fun j l' covers' =>
    (Hold.kind_of_shared (allShared j l' covers')).1
  have noLive := (pools.covering_eq_none governs (f := Hold.live)).2 fun j l' covers' =>
    (Hold.kind_of_shared (allShared j l' covers')).2
  cases search : s.covering l.range.pool ((s.pool l.range.pool).granuleOf a) fun h => h.mode = .shared with
  | none => simpa [shared] using (pools.covering_eq_none governs).1 search k l covers
  | some j =>
    obtain ⟨⟨l', covers', _⟩, lowest⟩ := (pools.covering_eq_some governs).1 search
    refine ⟨j, ⟨l', covers'⟩, fun i lower l'' covers'' => ?_, ?_⟩
    · simpa [allShared i l'' covers''] using lowest i lower l'' covers''
    · rw [verdict_of_governs pools governs, if_neg notFenced, granuleVerdict_of_shared noClosed noLive search]

/-- A write that passes is its master's by the lease the judge finds, of which it is the current user, or by the policy
OPEN where no lease covers the address (R117). -/
theorem write_pass_inv (pools : s.PoolLaw) (governs : s.Governs a p) (pass : s.verdict m a .write = .pass) :
    (∃ k l, s.covering p ((s.pool p).granuleOf a) Hold.live = some k ∧ s.Covers a k l ∧ l.hold.live = true ∧
        l.hold.currentUser? = some m) ∨
      ((∀ k l, ¬s.Covers a k l) ∧ (s.pool p).policy = .openAll ∧ (s.master m).state ≠ .fenced) := by
  rw [verdict_of_governs pools governs] at pass
  split at pass
  · cases pass
  rename_i notFenced
  cases closed : s.covering p ((s.pool p).granuleOf a) Hold.closed with
  | some k => simp [granuleVerdict_of_closed closed] at pass
  | none =>
  cases live : s.covering p ((s.pool p).granuleOf a) Hold.live with
  | some k =>
    obtain ⟨⟨l, covers, isLive⟩, _⟩ := (pools.covering_eq_some governs).1 live
    rw [granuleVerdict_of_live closed live covers.1] at pass
    exact .inl ⟨k, l, rfl, covers, isLive, Hold.currentUser_of_roleVerdict_pass isLive pass⟩
  | none =>
  cases shared : s.covering p ((s.pool p).granuleOf a) fun h => h.mode = .shared with
  | some k =>
    rw [granuleVerdict_of_shared closed live shared] at pass
    exact absurd pass sharedVerdict_write_ne_pass
  | none =>
    rw [granuleVerdict_of_uncovered closed live shared] at pass
    refine .inr ⟨fun k l covers => ?_, policyVerdict_write_pass pass, notFenced⟩
    have notClosed := (pools.covering_eq_none governs).1 closed k l covers
    have notLive := (pools.covering_eq_none governs).1 live k l covers
    have notShared := (pools.covering_eq_none governs).1 shared k l covers
    rcases l.hold.closed_or_live_or_shared with isClosed | isLive | isShared <;> simp_all

/-! ### Refusal reports (R120) -/

/-- Steps 1 and 2 of a refusal report change the record of its master alone. -/
theorem countRefusal_masterBecomes (s : State) (m : Mid) (n : Note) :
    s.MasterBecomes (s.countRefusal m n) m
      { s.master m with
        violations := min 15 ((s.master m).violations + 1), note := some ((s.master m).note.getD n) } := by
  refine ⟨by simp [countRefusal], fun other ne => ?_⟩
  simp [countRefusal, ne.symm]

/-- Every master but the one SUPMID names is no supervisor (R125). -/
theorem isSupervisor_eq_false_iff : s.isSupervisor m = false ↔ m ≠ s.supmid := by simp [isSupervisor]

/-- Step 3 fences the master when the count, as it then stands, meets the threshold. -/
theorem overThreshold_countRefusal_iff (s : State) (m : Mid) (n : Note) :
    (s.countRefusal m n).overThreshold m = true ↔
      m ≠ s.supmid ∧ (s.master m).state ≠ .fenced ∧ 0 < (s.master m).threshold ∧
        (s.master m).threshold ≤ min 15 ((s.master m).violations + 1) := by
  simp [overThreshold, countRefusal, isSupervisor_eq_false_iff, fenced, and_assoc]

end State

end Sys2Proof.Machine

namespace Sys2Proof.Proofs

open Sys2Proof.Machine

/-- Settles O41: the verdict goes by the role in the one lease that covers the address, role by role. -/
theorem accessUnderExclusive : Obligations.AccessUnderExclusive := by
  intro s m a dir size data k l o served pools coverage covers owner notFenced
  have governs := covers.2.1
  have verdict := State.verdict_under_exclusive (dir := dir) pools coverage notFenced covers owner
  rw [Hold.role_of_owner owner] at verdict
  refine ⟨fun self unlent => State.passes_of_verdict served pools governs ?_,
    fun other last => State.passes_of_verdict served pools governs ?_,
    fun self lent => State.refuses_of_verdict served pools governs ?_,
    fun other delegate notLast => State.refuses_of_verdict served pools governs ?_,
    fun other outsider => State.refuses_of_verdict served pools governs ?_⟩
  · rw [verdict, if_pos self, if_pos unlent]; rfl
  · rw [verdict, if_neg other, if_pos last]; rfl
  · rw [verdict, if_pos self, if_neg lent]; rfl
  · rw [verdict, if_neg other, if_neg notLast, if_pos delegate]; rfl
  · rw [verdict, if_neg other, if_neg (mt List.mem_of_getLast? outsider), if_neg outsider]; rfl

/-- Settles O42: the search for a lease that `m` shares finds the slot of the refused write, and where it finds none the
lowest covering slot is the one reported. -/
theorem accessUnderShared : Obligations.AccessUnderShared := by
  intro s m a size data k l served pools coverage covers shared notFenced
  have governs := covers.2.1
  refine ⟨fun shares lowest => ?_, fun noneShares lowest dir => ?_⟩
  · have found := (pools.covering_eq_some governs (f := fun h => h.shares m) (k := k)).2
      ⟨⟨l, covers, shares⟩, fun j lower l' => lowest j l' lower⟩
    obtain ⟨_, _, _, read⟩ := State.verdict_under_shared (dir := .read) pools coverage notFenced covers shared
    obtain ⟨_, _, _, write⟩ := State.verdict_under_shared (dir := .write) pools coverage notFenced covers shared
    exact ⟨State.passes_of_verdict served pools governs (read.trans (State.sharedVerdict_read_of_sharer found)),
      State.refuses_of_verdict served pools governs (write.trans (State.sharedVerdict_write_of_sharer found))⟩
  · have notFound := (pools.covering_eq_none governs (f := fun h => h.shares m)).2 noneShares
    obtain ⟨j, ⟨l', covers'⟩, lowest', verdict⟩ :=
      State.verdict_under_shared (dir := dir) pools coverage notFenced covers shared
    have first : j = k := le_antisymm (not_lt.1 fun lower => lowest' k lower l covers)
      (not_lt.1 fun lower => lowest j l' lower covers')
    rw [State.sharedVerdict_of_outsider notFound, first] at verdict
    exact State.refuses_of_verdict served pools governs verdict

/-- Settles O45: the state after the first two steps, and the third by the test on it. -/
theorem refusalReported : Obligations.RefusalReported := by
  intro s m n
  refine ⟨s.countRefusal m n, rfl, ?_, fun keeps => ?_, fun fences => ?_⟩
  · have becomes := State.countRefusal_masterBecomes s m n
    cases note : (s.master m).note <;> simpa [note] using becomes
  · rw [State.reportRefusal, if_neg (mt (State.overThreshold_countRefusal_iff s m n).1 keeps)]
  · rw [State.reportRefusal, if_pos ((State.overThreshold_countRefusal_iff s m n).2 fences)]

/-- Settles O46: what a passing write tells of its master; two such masters over one covered granule are the current
user of the same lease, the one the judge finds. -/
theorem writesOnlyByCurrentUser : Obligations.WritesOnlyByCurrentUser := by
  intro s a p served pools governs passes
  have verdict_pass : ∀ m, passes m → s.verdict m a .write = .pass := by
    rintro m ⟨size, data, t, run, passed⟩
    rw [State.exec_access_of_governs served pools governs] at run
    cases run
    exact State.verdict_pass_of_judge passed
  refine ⟨fun m pass => ?_, fun ⟨k, l, covers⟩ m m' pass pass' => ?_⟩
  · refine (State.write_pass_inv pools governs (verdict_pass m pass)).imp_left ?_
    rintro ⟨k, l, _, user⟩
    exact ⟨k, l, user⟩
  · obtain ⟨j, x, found, holds, _, user⟩ :=
      (State.write_pass_inv pools governs (verdict_pass m pass)).resolve_right fun ⟨uncovered, _⟩ => uncovered k l covers
    obtain ⟨j', x', found', holds', _, user'⟩ :=
      (State.write_pass_inv pools governs (verdict_pass m' pass')).resolve_right fun ⟨uncovered, _⟩ => uncovered k l covers
    obtain rfl : j = j' := Option.some.inj (found.symm.trans found')
    obtain rfl : x = x' := Option.some.inj (holds.1.symm.trans holds'.1)
    exact Option.some.inj (user.symm.trans user')

end Sys2Proof.Proofs
end

section
/-! PROOF. STATUS (R133): the fields of the words it reports, and its rule. -/

namespace Sys2Proof.Machine

/-! ### Codes and the widths of their fields (Table 10-5) -/

/-- A flag fits in one bit. -/
@[simp] theorem flag_mod_two (b : Bool) : flag b % 2 = flag b := by cases b <;> rfl

/-- A master state fits in two bits. -/
@[simp] theorem MasterState.code_mod_four (x : MasterState) : x.code % 4 = x.code := by cases x <;> rfl

/-- A refusal reason fits in three bits. -/
@[simp] theorem Reason.code_mod_eight (r : Reason) : r.code % 8 = r.code := by cases r <;> rfl

/-- A direction fits in one bit. -/
@[simp] theorem dirCode_mod_two (d : Direction) : dirCode d % 2 = dirCode d := by cases d <;> rfl

/-- A slot fits in six bits, the slot "none" being 32 (R169). -/
@[simp] theorem slotCode_mod_sixtyFour (k : Option SlotIx) : slotCode k % 64 = slotCode k := by
  cases k with
  | none => rfl
  | some k => exact Nat.mod_eq_of_lt (by simp only [slotCode]; omega)

/-! ### The words that report a master's context -/

/-- Two fields of a word that lie apart do not show in one another. -/
theorem field_place_apart (v lo width lo' width' : Nat) (h : lo + width ≤ lo' ∨ lo' + width' ≤ lo)
    (b : lo + width ≤ 32) : field (place v lo width) lo' width' = 0 :=
  h.elim (field_place_above v lo width lo' width') fun below => field_place_below v lo width lo' width' below b

/-- The fields of the context word (Table 10-7): each reads its own item, because all of them lie apart. -/
theorem State.mstat_fields (s : State) (m : Mid) :
    field (s.mstat m) 0 2 = (s.master m).state.code ∧ field (s.mstat m) 2 1 = flag (m = s.supmid) ∧
      field (s.mstat m) 3 1 = flag (s.atn m) ∧ field (s.mstat m) 4 4 = (s.master m).threshold % 16 ∧
      field (s.mstat m) 8 6 = (s.master m).quota % 64 ∧
      field (s.mstat m) 14 1 = flag (s.master m).orphan.isSome ∧
      field (s.mstat m) 15 1 = flag (s.master m).note.isSome ∧
      field (s.mstat m) 16 6 = (s.master m).held % 64 ∧ field (s.mstat m) 24 3 = (s.master m).waiting % 8 ∧
      field (s.mstat m) 28 4 = (s.master m).violations % 16 := by
  refine ⟨?_, ?_, ?_, ?_, ?_, ?_, ?_, ?_, ?_, ?_⟩ <;>
    simp (disch := omega) [mstat, isSupervisor, field_or, field_place, field_place_apart]

/-- The fields of a refusal note in VAL1 (Table 10-6). -/
theorem noteWord_fields (n : Note) :
    field (noteWord (some n)) 0 3 = n.reason.code ∧ field (noteWord (some n)) 4 1 = dirCode n.dir ∧
      field (noteWord (some n)) 8 6 = slotCode n.slot ∧ field (noteWord (some n)) 31 1 = 1 := by
  refine ⟨?_, ?_, ?_, ?_⟩ <;> simp (disch := omega) [noteWord, field_or, field_place, field_place_apart]

/-! ### The rule of STATUS -/

/-- The context a master's answer reports does not see that its request is taken. -/
@[simp] theorem State.context_takeRequest (s : State) (m n : Mid) (code : BitVec 8) (r : Result) :
    (s.takeRequest m code).context n r = s.context n r := rfl

/-- STATUS is the request of code 0x22 with its own rule. -/
theorem exec_status (s : State) (m : Mid) : exec (.status m) s = .next (s.serveRequest m 0x22 statusRule) := rfl

/-- STATUS reports the context under OK in every state of the requester, and changes nothing (R133). -/
theorem status_answeredOnly {s : State} {m : Mid} (served : s.Served) :
    s.AnsweredOnly (.status m) m 0x22 (s.context m .ok) :=
  State.answeredOnly_of_rule served (exec_status s m) (by rw [statusRule, State.context_takeRequest])

end Sys2Proof.Machine

namespace Sys2Proof.Proofs

open Sys2Proof.Machine

/-- Settles O11: the answer is the requester's context, whose words are read field by field. -/
theorem statusReportsContext : Obligations.StatusReportsContext := by
  intro s m served
  obtain ⟨state, supervisor, atn, threshold, quota, orphan, note, held, waiting, violations⟩ := s.mstat_fields m
  refine ⟨s.context m .ok, rfl, status_answeredOnly served, rfl, state, supervisor, atn, threshold, quota, orphan,
    note, held, waiting, violations, fun noNote => ?_, fun n noted => ?_, rfl⟩
  · simp only [State.context, noNote, noteWord, noteAddress, and_self]
  · obtain ⟨reason, dir, slot, present⟩ := noteWord_fields n
    simp only [State.context, noted]
    exact ⟨reason, dir, slot, present, rfl⟩

end Sys2Proof.Proofs
end

section
/-! PROOF. The checks of DETACH (R130). -/

namespace Sys2Proof.Machine

/-- `m` owns the lease in its own right and has lent it to a delegate: what the first check of R130 looks for. -/
def Lease.LentBy (m : Mid) (l : Lease) : Prop := l.hold.owner? = some m ∧ l.hold.chain ≠ []

/-- The test of the first check of R130. -/
theorem Lease.lentBy_iff {m : Mid} {l : Lease} : (l.ownedBy m && l.hold.chain ≠ []) = true ↔ l.LentBy m := by
  simp [Lease.ownedBy, Lease.LentBy]

section Search

variable {s : State} {f : Lease → Bool} {p : Lease → Prop}

/-- The search of the lease table finds the lowest-numbered lease that has the property it tests. -/
theorem State.findLease_of_lowest {k : SlotIx} {l : Lease} (lowest : ∀ j l', j < k → s.lease j = some l' → ¬p l')
    (holds : s.lease k = some l) (property : p l) (tests : ∀ {l}, f l = true ↔ p l) : s.findLease f = some k :=
  s.findLease_eq_some.2 ⟨⟨l, holds, tests.2 property⟩, fun j below l' holds' =>
    Bool.eq_false_iff.2 (mt tests.1 (lowest j l' below holds'))⟩

/-- Where no lease has the property it tests, the search finds nothing. -/
theorem State.findLease_of_none (nowhere : ∀ k l, s.lease k = some l → ¬p l) (tests : ∀ {l}, f l = true ↔ p l) :
    s.findLease f = none :=
  s.findLease_eq_none.2 fun k l holds => Bool.eq_false_iff.2 (mt tests.1 (nowhere k l holds))

end Search

section Rule

variable {s : State} {m : Mid} {k : SlotIx} {l : Lease}

/-- DETACH is the request of code 0x02 with its own rule. -/
theorem exec_detach (s : State) (m : Mid) : exec (.detach m) s = .next (s.serveRequest m 0x02 detachRule) := rfl

/-- Past the standing checks a refused DETACH changes nothing (R127, R130). -/
theorem detachRule_of_refusal {a : Answer} (standing : s.standing m = none) (refused : detachRefusal s m = some a) :
    detachRule s m = (s, a) := by
  simp only [detachRule, standing, refused, State.unlessRefused_none, State.unlessRefused_some]

/-- A served DETACH of an ATTACHED master is refused as its own checks say. -/
theorem detach_answeredOnly {a : Answer} (served : s.Served) (attached : (s.master m).state = .attached)
    (refused : detachRefusal s m = some a) : s.AnsweredOnly (.detach m) m 0x02 a :=
  State.answeredOnly_of_rule served (exec_detach s m)
    (detachRule_of_refusal (State.standing_of_attached attached) refused)

/-- The first check of R130 reports the lowest-numbered lease that the requester has lent. -/
theorem detachRefusal_lent (holds : s.lease k = some l) (lent : l.LentBy m)
    (lowest : ∀ j l', j < k → s.lease j = some l' → ¬l'.LentBy m) :
    detachRefusal s m = some (.items .lent (s.handle k).toNat) := by
  simp only [detachRefusal, State.findLease_of_lowest lowest holds lent Lease.lentBy_iff]

/-- The second check of R130, past the first, reports the lowest-numbered lease whose chain has a frame of the
requester. -/
theorem detachRefusal_inChain (noneLent : ∀ k l, s.lease k = some l → ¬l.LentBy m) (holds : s.lease k = some l)
    (frame : m ∈ l.hold.chain) (lowest : ∀ j l', j < k → s.lease j = some l' → m ∉ l'.hold.chain) :
    detachRefusal s m = some (.items .inChain (s.handle k).toNat) := by
  have found : s.findLease (fun l => l.hold.chain.contains m) = some k :=
    State.findLease_of_lowest lowest holds frame List.contains_iff_mem
  simp only [detachRefusal, State.findLease_of_none noneLent Lease.lentBy_iff, found, Option.map_some]

end Rule

end Sys2Proof.Machine

namespace Sys2Proof.Proofs

open Sys2Proof.Machine

/-- Settles O12: each check of R130 finds the lowest-numbered lease it is about, and a refusal changes nothing. -/
theorem detachChecks : Obligations.DetachChecks := by
  intro s m served attached
  refine ⟨fun k l holds lent lowest => ?_, fun noneLent k l holds frame lowest => ?_⟩
  · exact detach_answeredOnly served attached (detachRefusal_lent holds lent lowest)
  · exact detach_answeredOnly served attached (detachRefusal_inChain noneLent holds frame lowest)

end Sys2Proof.Proofs
end

section
/-! PROOF. What an operation on one lease slot does, said in one form: the slot's new lease, how many held counts fall,
and which notices move to the orphan fields. The operations that work on one slot are given in that form, and so is a scan
of all slots. -/

namespace Sys2Proof.Machine

/-- The sharers of a hold without `m` (R30). -/
def Hold.others (h : Hold) (m : Mid) : List Sharer := h.sharers.filter fun e => e.master ≠ m

namespace State

variable {s t u : State} {k : SlotIx}

/-! ### Counts lowered one by one (R128) -/

/-- Lowering the held counts of several masters lowers each as often as it is named. -/
theorem master_foldl_lowerHeld (s : State) (ms : List Mid) (n : Mid) :
    (ms.foldl lowerHeld s).master n = { s.master n with held := (s.master n).held - ms.count n } := by
  induction ms generalizing s with
  | nil => rfl
  | cons m ms ih =>
    rw [List.foldl_cons, ih, master_lowerHeld, List.count_cons]
    by_cases e : m = n
    · subst e; simp; omega
    · simp [e]

/-! ### Notice sets (R33) -/

/-- One master's place in a notice set after a notice is raised. -/
theorem raised_get (s : State) (ns : NoticeSet) (x : NoticeKind) (ms : List Mid) (n : Mid) :
    (s.raised ns x ms)[n] = if n ∈ ms ∧ s.attached n = true then some x else ns[n] := by
  simp [raised]

/-- Two notice sets with the same place for every master are the same. -/
theorem noticeSet_ext {a b : NoticeSet} (h : ∀ n : Mid, a[n] = b[n]) : a = b :=
  Vector.ext fun i hi => h ⟨i, hi⟩

/-- One master's place in a notice set after one place is written. -/
theorem notices_set_get (ns : NoticeSet) (m n : Mid) (x : Option NoticeKind) :
    (ns.set m x)[n] = if m = n then x else ns[n] := by
  simp [Vector.getElem_set, Fin.ext_iff]

@[simp] theorem raised_nil (s : State) (ns : NoticeSet) (x : NoticeKind) : s.raised ns x [] = ns :=
  noticeSet_ext fun n => by rw [raised_get, if_neg (by simp)]

/-- Raising a notice looks at the state only to see who is ATTACHED. -/
theorem raised_congr (h : t.attached = s.attached) (ns : NoticeSet) (x : NoticeKind) (ms : List Mid) :
    t.raised ns x ms = s.raised ns x ms :=
  noticeSet_ext fun n => by rw [raised_get, raised_get, h]

/-- Raising for one master and then for others is raising for all of them. -/
theorem raised_raised (s : State) (ns : NoticeSet) (x : NoticeKind) (ms ms' : List Mid) :
    s.raised (s.raised ns x ms) x ms' = s.raised ns x (ms ++ ms') :=
  noticeSet_ext fun n => by
    simp only [raised_get, List.mem_append]
    by_cases told : n ∈ ms <;> by_cases told' : n ∈ ms' <;> by_cases a : s.attached n = true <;>
      simp [told, told', a]

/-- For an ATTACHED master raising is writing its place. -/
theorem raised_attached {m : Mid} (h : s.attached m = true) (ns : NoticeSet) (x : NoticeKind) :
    s.raised ns x [m] = ns.set m (some x) :=
  noticeSet_ext fun n => by
    rw [raised_get, notices_set_get]
    by_cases e : m = n
    · subst e; simp [h]
    · simp [e, Ne.symm e]

/-- Where nobody is told anything, nothing moves to an orphan field. -/
@[simp] theorem orphanAfter_none (x : Master) (h : Handle) : orphanAfter x h none = x.orphan := rfl

/-! ### One operation on one slot -/

/-- From `s` to `t` slot `k` alone changes, keeping its generation and holding `after`; the held count of each master falls
by `lost`, and the notices `moved` go to the orphan fields under the slot's handle. -/
structure Touches (s : State) (k : SlotIx) (after : Option Lease) (lost : Mid → Nat)
    (moved : Mid → Option NoticeKind) (t : State) : Prop where
  frame : t = { s with slots := t.slots, masters := t.masters }
  slot : ∀ j, t.slot j = { gen := (s.slot j).gen, lease := if k = j then after else s.lease j }
  master : ∀ n, t.master n =
    { s.master n with
      held := (s.master n).held - lost n
      orphan := orphanAfter (s.master n) (s.handle k) (moved n) }

/-- Nobody's count falls. -/
def noLoss : Mid → Nat := fun _ => 0

/-- No notice moves. -/
def noMove : Mid → Option NoticeKind := fun _ => none

namespace Touches

variable {after after' : Option Lease} {lost lost' : Mid → Nat} {moved moved' : Mid → Option NoticeKind}

theorem lease (h : s.Touches k after lost moved t) (j : SlotIx) : t.lease j = if k = j then after else s.lease j :=
  congrArg Slot.lease (h.slot j)

theorem lease_same (h : s.Touches k after lost moved t) : t.lease k = after := by rw [h.lease, if_pos rfl]

theorem lease_ne (h : s.Touches k after lost moved t) {j : SlotIx} (e : k ≠ j) : t.lease j = s.lease j := by
  rw [h.lease, if_neg e]

theorem gen (h : s.Touches k after lost moved t) (j : SlotIx) : (t.slot j).gen = (s.slot j).gen :=
  (congrArg Slot.gen (h.slot j) :)

theorem handle (h : s.Touches k after lost moved t) (j : SlotIx) : t.handle j = s.handle j :=
  congrArg (handleOf · j) (h.gen j)

theorem attached (h : s.Touches k after lost moved t) : t.attached = s.attached :=
  funext fun n => by simp only [State.attached, h.master]

theorem supmid (h : s.Touches k after lost moved t) : t.supmid = s.supmid := by rw [h.frame]

theorem time (h : s.Touches k after lost moved t) : t.time = s.time := by rw [h.frame]

/-- Nothing done is an operation that leaves the lease. -/
theorem refl (s : State) (k : SlotIx) : s.Touches k (s.lease k) noLoss noMove s where
  frame := rfl
  slot j := by
    by_cases e : k = j
    · subst e; simp [State.lease]
    · simp [e, State.lease]
  master _ := rfl

/-- One operation and then another on the same slot. -/
theorem trans (h : s.Touches k after lost moved t) (g : t.Touches k after' lost' moved' u) :
    s.Touches k after' (fun n => lost n + lost' n) (fun n => (moved' n).or (moved n)) u where
  frame := by rw [g.frame, h.frame]
  slot j := by rw [g.slot, h.gen, h.lease]; by_cases e : k = j <;> simp [e]
  master n := by
    rw [g.master, h.handle, h.master]
    cases moved' n <;> simp [orphanAfter, Nat.sub_sub]

/-- The same effect, said in other words. -/
theorem cast (h : s.Touches k after lost moved t) (a : after = after') (l : ∀ n, lost n = lost' n)
    (m : ∀ n, moved n = moved' n) : s.Touches k after' lost' moved' t := by
  obtain rfl := a; obtain rfl := funext l; obtain rfl := funext m; exact h

/-- An operation that changes the lease only, and then another. -/
theorem andThen (h : s.Touches k after noLoss noMove t) (g : t.Touches k after' lost' moved' u) :
    s.Touches k after' lost' moved' u :=
  (h.trans g).cast rfl (fun _ => Nat.zero_add _) (fun n => by simp [noMove])

/-- An operation, and then one that changes the lease only. -/
theorem thenLease (h : s.Touches k after lost moved t) (g : t.Touches k after' noLoss noMove u) :
    s.Touches k after' lost moved u :=
  (h.trans g).cast rfl (fun _ => Nat.add_zero _) (fun n => by simp [noMove])

end Touches

/-- Giving a slot a lease. -/
theorem touches_setLease (s : State) (k : SlotIx) (l : Lease) : s.Touches k (some l) noLoss noMove (s.setLease k l) where
  frame := rfl
  slot j := s.slot_setLease k j l
  master _ := rfl

/-- Lowering a held count beside. -/
theorem Touches.lowerHeld {after : Option Lease} {moved : Mid → Option NoticeKind}
    (h : s.Touches k after noLoss moved t) (m : Mid) :
    s.Touches k after (fun n => if n = m then 1 else 0) moved (t.lowerHeld m) where
  frame := by rw [h.frame]; rfl
  slot j := h.slot j
  master n := by
    rw [master_lowerHeld]
    by_cases e : m = n
    · subst e; simp [h.master, noLoss]
    · simp [e, Ne.symm e, h.master, noLoss]

/-- Raising a notice (R33). -/
theorem touches_notify (s : State) (k : SlotIx) (x : NoticeKind) (m : Mid) :
    s.Touches k ((s.lease k).map fun l => { l with notices := s.raised l.notices x [m] }) noLoss noMove
      (s.notify k x m) := by
  cases holds : s.lease k with
  | none =>
    have same : s.notify k x m = s := by simp only [notify, holds]; split <;> rfl
    rw [same, Option.map_none, ← holds]
    exact .refl s k
  | some l =>
    by_cases a : s.attached m = true
    · rw [Option.map_some, raised_attached a]
      have e : s.notify k x m = s.setLease k { l with notices := l.notices.set m (some x) } := by
        simp [notify, a, holds]
      rw [e]; exact touches_setLease ..
    · have e : s.notify k x m = s := by simp [notify, a]
      have none_told : s.raised l.notices x [m] = l.notices := by
        refine noticeSet_ext fun n => ?_
        rw [raised_get, if_neg]
        rintro ⟨mem, att⟩
        rw [List.mem_singleton.1 mem] at att
        exact a att
      rw [e, Option.map_some, none_told, ← holds]
      exact .refl s k

/-- Raising notices for several masters. -/
theorem touches_notifyAll (s : State) (k : SlotIx) (x : NoticeKind) (ms : List Mid) :
    s.Touches k ((s.lease k).map fun l => { l with notices := s.raised l.notices x ms }) noLoss noMove
      (s.notifyAll k x ms) := by
  induction ms generalizing s with
  | nil =>
    refine (Touches.refl s k).cast ?_ (fun _ => rfl) (fun _ => rfl)
    cases s.lease k <;> simp
  | cons m ms ih =>
    have first := touches_notify s k x m
    rw [notifyAll_cons]
    refine (first.andThen (ih (s.notify k x m))).cast ?_ (fun _ => rfl) (fun _ => rfl)
    rw [first.lease_same]
    cases s.lease k with
    | none => rfl
    | some l => simp [raised_congr first.attached, raised_raised]

/-- The place of a hold's current user among those told (R101). -/
theorem touches_notifyUser (s : State) (k : SlotIx) (x : NoticeKind) (h : Hold) :
    s.Touches k ((s.lease k).map fun l => { l with notices := s.raised l.notices x h.currentUser?.toList }) noLoss noMove
      (s.notifyUser k x h) := by
  cases user : h.currentUser? with
  | none =>
    have e : s.notifyUser k x h = s := by simp [notifyUser, user]
    rw [e]
    refine (Touches.refl s k).cast ?_ (fun _ => rfl) (fun _ => rfl)
    cases s.lease k <;> simp
  | some m =>
    have e : s.notifyUser k x h = s.notify k x m := by simp [notifyUser, user]
    rw [e]; exact touches_notify ..

/-- Removing one master's notice (R89). -/
theorem touches_dropNotice (s : State) (k : SlotIx) (m : Mid) :
    s.Touches k ((s.lease k).map fun l => { l with notices := l.notices.set m none }) noLoss noMove
      (s.dropNotice k m) := by
  cases holds : s.lease k with
  | none =>
    have e : s.dropNotice k m = s := by simp [dropNotice, holds]
    rw [e, Option.map_none, ← holds]; exact .refl s k
  | some l =>
    have e : s.dropNotice k m = s.setLease k { l with notices := l.notices.set m none } := by simp [dropNotice, holds]
    rw [e]; exact touches_setLease ..

/-- The notices that a slot's freeing moves, master by master (R34). -/
def movedOf (l : Option Lease) : Mid → Option NoticeKind := fun n => l.bind fun l => l.notices[n]

/-- Freeing a slot (R19): it is FREE, those that still hold it lose one count each, and its notices move. -/
theorem touches_freeSlot {l : Lease} (holds : s.lease k = some l) :
    s.Touches k none (fun n => l.hold.holders.count n) (fun n => l.notices[n]) (s.freeSlot k) where
  frame := freeSlot_frame s k
  slot j := slot_freeSlot s k j
  master n := by
    simp only [freeSlot, holds, master_foldl_lowerHeld, master_setSlot, master_moveToOrphans]
    cases e : l.notices[n] <;> simp [orphanAfter]

/-- Freeing a FREE slot changes nothing. -/
theorem freeSlot_of_none (free : s.lease k = none) : s.freeSlot k = s := by simp only [freeSlot, free]

/-- Tainting a lease EXCLUSIVE in HELD or GRACE (R20). -/
theorem touches_taintSlot {l : Lease} {o : Mid} (holds : s.lease k = some l) (owner : l.hold.owner? = some o) :
    s.Touches k (some { l with hold := l.hold.taint }) (fun n => if n = o then 1 else 0) noMove (s.taintSlot k) := by
  rw [taintSlot_of_owner s holds owner]
  exact (touches_setLease ..).lowerHeld o

/-- Ending the last membership of a lease frees its slot (R31). -/
theorem touches_endMembership_last {l : Lease} {m : Mid} (holds : s.lease k = some l) (shares : l.hold.shares m = true)
    (last : l.hold.others m = []) :
    s.Touches k none (fun n => if n = m then 1 else 0) (fun n => l.notices[n]) (s.endMembership k m) := by
  have unfolded : s.endMembership k m = ((s.setLease k { l with hold := .shared [] }).lowerHeld m).freeSlot k := by
    simp only [endMembership, holds, shares, if_true]
    simp only [Hold.others] at last
    rw [last, if_pos rfl]
  have lowered := (touches_setLease s k { l with hold := .shared [] }).lowerHeld m
  rw [unfolded]
  refine (lowered.trans (touches_freeSlot lowered.lease_same)).cast rfl (fun n => by simp [Hold.holders]) fun n => ?_
  cases l.notices[n] <;> rfl

/-- Ending another membership takes its entry off the list (R30). -/
theorem touches_endMembership_other {l : Lease} {m : Mid} (holds : s.lease k = some l) (shares : l.hold.shares m = true)
    (more : l.hold.others m ≠ []) :
    s.Touches k (some { l with hold := .shared (l.hold.others m) }) (fun n => if n = m then 1 else 0) noMove
      (s.endMembership k m) := by
  have unfolded : s.endMembership k m = (s.setLease k { l with hold := .shared (l.hold.others m) }).lowerHeld m := by
    simp only [endMembership, holds, shares, if_true]
    exact if_neg more
  rw [unfolded]
  exact (touches_setLease ..).lowerHeld m

/-- Ending a membership that is not there changes nothing. -/
theorem endMembership_of_not {m : Mid} (none : ∀ l, s.lease k = some l → l.hold.shares m = false) :
    s.endMembership k m = s := by
  simp only [endMembership]
  cases holds : s.lease k with
  | none => rfl
  | some l => simp [none l holds]

end State

end Sys2Proof.Machine
end

section
/-! PROOF. A scan of all slots by an operation that looks only at its own slot: every slot holds what the operation makes of
it, the counts fall by the sum, and each orphan field holds the notice of the highest slot that moved one. -/

namespace Sys2Proof.Machine.State

variable {s t u : State}

/-- What an operation on a slot can see beside the slot: who is ATTACHED, who is the supervisor, and the time base. -/
structure SameView (s t : State) : Prop where
  attached : t.attached = s.attached
  supmid : t.supmid = s.supmid
  time : t.time = s.time

theorem SameView.refl (s : State) : s.SameView s := ⟨rfl, rfl, rfl⟩

theorem SameView.trans (h : s.SameView t) (g : t.SameView u) : s.SameView u :=
  ⟨g.attached.trans h.attached, g.supmid.trans h.supmid, g.time.trans h.time⟩

theorem Touches.sameView {k : SlotIx} {after : Option Lease} {lost : Mid → Nat} {moved : Mid → Option NoticeKind}
    (h : s.Touches k after lost moved t) : s.SameView t := ⟨h.attached, h.supmid, h.time⟩

/-- What an operation does to one slot: the lease it leaves, the counts that fall, the notices that move. -/
structure SlotEffect where
  after : Option Lease
  lost : Mid → Nat
  moved : Mid → Option NoticeKind

/-- Nothing done to a slot that holds `l`. -/
def SlotEffect.unchanged (l : Option Lease) : SlotEffect := { after := l, lost := noLoss, moved := noMove }

/-- The orphan field `o` of `n` after the notices of these slots have moved, in their order (R34). -/
def orphanAlong (s : State) (moved : SlotIx → Option NoticeKind) (ks : List SlotIx) (o : Option Orphan) :
    Option Orphan :=
  ks.foldl (fun o k => match moved k with
    | none => o
    | some x => some { handle := s.handle k, kind := x }) o

/-- `u` is `s` after a scan of the slots `ks` with these effects. -/
structure Scans (s : State) (ks : List SlotIx) (effect : SlotIx → SlotEffect) (u : State) : Prop where
  frame : u = { s with slots := u.slots, masters := u.masters }
  slot : ∀ j, u.slot j = { gen := (s.slot j).gen, lease := if j ∈ ks then (effect j).after else s.lease j }
  master : ∀ n, u.master n =
    { s.master n with
      held := (s.master n).held - (ks.map fun k => (effect k).lost n).sum
      orphan := s.orphanAlong (fun k => (effect k).moved n) ks (s.master n).orphan }

/-- A scan by an operation that, on each slot as it stood, has the effect given. -/
theorem scans_foldl {f : State → SlotIx → State} {effect : SlotIx → SlotEffect} (ks : List SlotIx) (distinct : ks.Nodup)
    (s : State)
    (acts : ∀ t, ∀ k ∈ ks, s.SameView t → t.slot k = s.slot k →
      t.Touches k (effect k).after (effect k).lost (effect k).moved (f t k)) :
    s.Scans ks effect (ks.foldl f s) := by
  induction ks generalizing s with
  | nil => exact ⟨rfl, fun j => by simp [lease], fun n => rfl⟩
  | cons k ks ih =>
    obtain ⟨fresh, distinct⟩ := List.nodup_cons.1 distinct
    have first := acts s k (by simp) (.refl s) rfl
    have apart : ∀ j ∈ ks, k ≠ j := fun j hj e => fresh (e ▸ hj)
    have rest := ih distinct (f s k) fun t j hj view same =>
      acts t j (by simp [hj]) (first.sameView.trans view) (by
        rw [same, first.slot, if_neg (apart j hj)]; rfl)
    refine ⟨?_, fun j => ?_, fun n => ?_⟩
    · rw [List.foldl_cons, rest.frame, first.frame]
    · rw [List.foldl_cons, rest.slot, first.gen, first.lease]
      by_cases e : k = j
      · subst e; simp [fresh]
      · simp [e, Ne.symm e]
    · rw [List.foldl_cons, rest.master, first.master]
      have handles : ∀ (o : Option Orphan) (m : SlotIx → Option NoticeKind),
          (f s k).orphanAlong m ks o = s.orphanAlong m ks o := by
        intro o m
        simp only [orphanAlong, first.handle]
      simp only [handles, List.map_cons, List.sum_cons, Nat.sub_sub]
      cases told : (effect k).moved n <;> simp only [orphanAlong, List.foldl_cons, orphanAfter, told]

namespace Scans

variable {ks : List SlotIx} {effect : SlotIx → SlotEffect}

theorem gen (h : s.Scans ks effect u) (j : SlotIx) : (u.slot j).gen = (s.slot j).gen :=
  (congrArg Slot.gen (h.slot j) :)

theorem handle (h : s.Scans ks effect u) (j : SlotIx) : u.handle j = s.handle j := congrArg (handleOf · j) (h.gen j)

theorem attached (h : s.Scans ks effect u) : u.attached = s.attached :=
  funext fun n => by simp only [State.attached, h.master]

theorem sameView (h : s.Scans ks effect u) : s.SameView u :=
  ⟨h.attached, by rw [h.frame], by rw [h.frame]⟩

/-- A scan of all slots leaves each with the lease that its effect gives. -/
theorem lease_all (h : s.Scans allSlots effect u) (j : SlotIx) : u.lease j = (effect j).after := by
  rw [lease, h.slot]; simp [allSlots]

end Scans

theorem nodup_allSlots : allSlots.Nodup := List.nodup_finRange 32

@[simp] theorem mem_allSlots (k : SlotIx) : k ∈ allSlots := List.mem_finRange k

/-- Moving no notice leaves the orphan field. -/
theorem orphanAlong_of_none {moved : SlotIx → Option NoticeKind} {ks : List SlotIx} (h : ∀ k ∈ ks, moved k = none)
    (o : Option Orphan) : s.orphanAlong moved ks o = o := by
  induction ks generalizing o with
  | nil => rfl
  | cons k ks ih =>
    simp only [orphanAlong, List.foldl_cons, h k (by simp)]
    exact ih (fun j hj => h j (by simp [hj])) o

/-- The last notice moved is the one that stays in the orphan field (R34, R145). -/
theorem orphanAlong_of_last {moved : SlotIx → Option NoticeKind} {k : SlotIx} {x : NoticeKind} (h : moved k = some x)
    (last : ∀ j, k < j → moved j = none) (o : Option Orphan) :
    s.orphanAlong moved allSlots o = some { handle := s.handle k, kind := x } := by
  obtain ⟨before, after, split⟩ := List.append_of_mem (mem_allSlots k)
  have sorted : (before ++ k :: after).Pairwise (· < ·) := split ▸ List.pairwise_lt_finRange 32
  have above : ∀ j ∈ after, k < j := (List.pairwise_cons.1 (List.pairwise_append.1 sorted).2.1).1
  rw [split]
  simp only [orphanAlong, List.foldl_append, List.foldl_cons, h]
  exact orphanAlong_of_none (fun j hj => last j (above j hj)) _

/-- The orphan field after a scan, in the words of the statements. -/
theorem orphansOf_of_along {freed : SlotIx → Option NoticeSet} {moved : SlotIx → Option NoticeKind} {n : Mid}
    (along : (u.master n).orphan = s.orphanAlong moved allSlots (s.master n).orphan)
    (agree : ∀ k, moved k = (freed k).bind fun ns => ns[n]) : s.OrphansOf u freed n := by
  refine ⟨fun k ns x frees told last => ?_, fun nothing => ?_⟩
  · rw [along]
    refine orphanAlong_of_last (by rw [agree, frees]; exact told) (fun j above => ?_) _
    rw [agree]
    cases f : freed j with
    | none => rfl
    | some ns' => exact last j ns' above f
  · rw [along]
    refine orphanAlong_of_none (fun k _ => ?_) _
    rw [agree]
    cases f : freed k with
    | none => rfl
    | some ns => exact nothing k ns f

/-! ### The operations of the scans -/

/-- What ending `m`'s membership does to a slot (R30, R31). -/
def leaveEffect (m : Mid) (l : Option Lease) : SlotEffect :=
  match l with
  | none => .unchanged none
  | some l =>
    if l.hold.shares m = true then
      if l.hold.others m = [] then
        { after := none, lost := fun n => if n = m then 1 else 0, moved := fun n => l.notices[n] }
      else
        { after := some { l with hold := .shared (l.hold.others m) }
          lost := fun n => if n = m then 1 else 0, moved := noMove }
    else .unchanged (some l)

theorem touches_endMembership (s : State) (k : SlotIx) (m : Mid) :
    s.Touches k (leaveEffect m (s.lease k)).after (leaveEffect m (s.lease k)).lost (leaveEffect m (s.lease k)).moved
      (s.endMembership k m) := by
  cases holds : s.lease k with
  | none => rw [endMembership_of_not (by simp [holds]), leaveEffect, ← holds]; exact .refl s k
  | some l =>
    by_cases shares : l.hold.shares m = true
    · by_cases last : l.hold.others m = []
      · simp only [leaveEffect, shares, last, if_true]
        exact touches_endMembership_last holds shares last
      · simp only [leaveEffect, shares, last, if_true, if_false]
        exact touches_endMembership_other holds shares last
    · rw [endMembership_of_not (by simpa [holds] using shares)]
      simp only [leaveEffect, shares, ← holds]
      exact .refl s k

/-- What a DETACH of `m` does to a slot (R131): its own lease is freed, its membership ends. -/
def detachEffect (m : Mid) (l : Option Lease) : SlotEffect :=
  match l with
  | none => .unchanged none
  | some l =>
    if l.hold.owner? = some m then
      { after := none, lost := fun n => l.hold.holders.count n, moved := fun n => l.notices[n] }
    else leaveEffect m (some l)

theorem touches_detachSlot (m : Mid) (s : State) (k : SlotIx) :
    s.Touches k (detachEffect m (s.lease k)).after (detachEffect m (s.lease k)).lost (detachEffect m (s.lease k)).moved
      (detachSlot m s k) := by
  have leaves := touches_endMembership s k m
  simp only [detachSlot, detachEffect]
  cases holds : s.lease k with
  | none =>
    rw [holds] at leaves
    simpa [leaveEffect] using leaves
  | some l =>
    by_cases owns : l.hold.owner? = some m
    · simp only [Option.any_some, Lease.ownedBy, owns, decide_true, if_true]
      exact touches_freeSlot holds
    · rw [holds] at leaves
      simpa [Lease.ownedBy, owns] using leaves

/-- What a fence of `m` does to a slot that `m` owns (R137, step 2). -/
def fenceOwnedEffect (m : Mid) (s : State) (k : SlotIx) : SlotEffect :=
  match s.lease k with
  | none => .unchanged none
  | some l =>
    if l.hold.owner? = some m then
      { after :=
          some
            { l with
              hold := l.hold.taint
              notices := s.raised (s.raised l.notices .revoked l.hold.chain) .tainted [s.supmid] }
        lost := fun n => if n = m then 1 else 0
        moved := noMove }
    else .unchanged (some l)

theorem touches_fenceOwned (m : Mid) (s : State) (k : SlotIx) :
    s.Touches k (fenceOwnedEffect m s k).after (fenceOwnedEffect m s k).lost (fenceOwnedEffect m s k).moved
      (fenceOwned m s k) := by
  simp only [fenceOwned, fenceOwnedEffect]
  cases holds : s.lease k with
  | none => simp only [← holds]; exact .refl s k
  | some l =>
    by_cases owns : l.hold.owner? = some m
    · simp only [Lease.ownedBy, owns, decide_true, if_true]
      have first := touches_taintSlot holds owns
      have told := touches_notifyAll (s.taintSlot k) k .revoked l.hold.chain
      refine ((first.thenLease told).thenLease (touches_notify _ k .tainted _)).cast ?_ (fun _ => rfl) (fun _ => rfl)
      rw [told.lease_same, first.lease_same]
      simp only [Option.map_some, raised_congr told.attached, raised_congr first.attached]
    · simp only [Lease.ownedBy, owns, decide_false, if_false, ← holds]
      exact .refl s k

theorem fenceOwnedEffect_congr {m : Mid} {k : SlotIx} (view : s.SameView t) (same : t.slot k = s.slot k) :
    fenceOwnedEffect m t k = fenceOwnedEffect m s k := by
  simp only [fenceOwnedEffect, lease, same, raised_congr view.attached, view.supmid]

/-- What a fence of `m` does to a chain in which `m` has a frame (R138). -/
def fenceChainEffect (m : Mid) (s : State) (k : SlotIx) : SlotEffect :=
  match s.lease k with
  | none => .unchanged none
  | some l =>
    if m ∈ l.hold.chain then
      let cut := l.hold.withChain (framesBefore m l.hold.chain)
      .unchanged
        (some
          { l with
            hold := cut
            notices :=
              s.raised (s.raised l.notices .returned cut.currentUser?.toList) .recalled
                (framesAfter m l.hold.chain) })
    else .unchanged (some l)

theorem touches_fenceChain (m : Mid) (s : State) (k : SlotIx) :
    s.Touches k (fenceChainEffect m s k).after (fenceChainEffect m s k).lost (fenceChainEffect m s k).moved
      (fenceChain m s k) := by
  simp only [fenceChain, fenceChainEffect]
  cases holds : s.lease k with
  | none => simp only [← holds]; exact .refl s k
  | some l =>
    by_cases frame : m ∈ l.hold.chain
    · simp only [frame, if_true]
      have cut := touches_setLease s k { l with hold := l.hold.withChain (framesBefore m l.hold.chain) }
      have told := cut.thenLease
        (touches_notifyUser _ k .returned (l.hold.withChain (framesBefore m l.hold.chain)))
      refine (told.thenLease (touches_notifyAll _ k .recalled _)).cast ?_ (fun _ => rfl) (fun _ => rfl)
      rw [told.lease_same, cut.lease_same]
      simp only [Option.map_some, SlotEffect.unchanged, raised_congr told.attached, raised_congr cut.attached]
    · simp only [frame, if_false, ← holds]
      exact .refl s k

theorem fenceChainEffect_congr {m : Mid} {k : SlotIx} (view : s.SameView t) (same : t.slot k = s.slot k) :
    fenceChainEffect m t k = fenceChainEffect m s k := by
  simp only [fenceChainEffect, lease, same, raised_congr view.attached]

end Sys2Proof.Machine.State
end

section
/-! PROOF. What a tick does to one slot (Table 4-2), and the ends of terms, graces and memberships that the expiry events
bring alone. -/

namespace Sys2Proof.Machine

@[simp] theorem Sharer.master_tick (level : Nat) (e : Sharer) : (e.tick level).master = e.master := rfl

namespace State

variable {s t : State} {k : SlotIx} {l : Lease}

/-- A lease whose grace ends enters TAINTED, and its owner, its delegates and the supervisor hear it (R77). -/
def graceEnded (s : State) (l : Lease) (o : Mid) : Lease :=
  { l with hold := l.hold.taint, notices := s.raised l.notices .tainted (o :: l.hold.chain ++ [s.supmid]) }

theorem touches_endGrace {o : Mid} (holds : s.lease k = some l) (owner : l.hold.owner? = some o) :
    s.Touches k (some (s.graceEnded l o)) (fun n => if n = o then 1 else 0) noMove (s.endGrace k) := by
  have first := touches_taintSlot holds owner
  simp only [endGrace, holds, owner]
  refine (first.thenLease (touches_notifyAll ..)).cast ?_ (fun _ => rfl) (fun _ => rfl)
  rw [first.lease_same, Option.map_some, raised_congr first.attached, graceEnded]

/-- A lease whose term ends enters GRACE, and its owner hears it (R76). -/
def termEnded (s : State) (l : Lease) (o : Mid) (tag : Tag) (n : Term) (c : List Mid) : Lease :=
  { l with
    hold := .grace o tag { n with remaining := 0 } c s.time.graceLength
    notices := s.raised l.notices .expired [o] }

theorem touches_endTerm {o : Mid} {tag : Tag} {n : Term} {c : List Mid} (holds : s.lease k = some l)
    (hold : l.hold = .held o tag n c) (grace : s.time.graceLength ≠ 0) :
    s.Touches k (some (s.termEnded l o tag n c)) noLoss noMove (s.endTerm k) := by
  simp only [endTerm, holds, hold, grace, if_false]
  exact ((touches_setLease ..).andThen (touches_notify ..)).cast
    (by rw [(touches_setLease ..).lease_same]; rfl) (fun _ => rfl) (fun _ => rfl)

/-- Where the grace length is 0 the end of a term is the end of a grace (R76). -/
theorem endTerm_of_no_grace {o : Mid} {tag : Tag} {n : Term} {c : List Mid} (holds : s.lease k = some l)
    (hold : l.hold = .held o tag n c) (grace : s.time.graceLength = 0) : s.endTerm k = s.endGrace k := by
  simp only [endTerm, holds, hold, grace, if_true]

/-! ### The ends of sharer terms (R79) -/

/-- What the ends of the sharer terms of `ms` leave in a slot whose lease `l` has the sharers `es`: EXPIRED is raised for
each, their entries go, and the last one frees the slot. -/
def endSharersEffect (s : State) (l : Lease) (es : List Sharer) (ms : List Mid) : SlotEffect :=
  let left := es.filter fun e => e.master ∉ ms
  let told := s.raised l.notices .expired ms
  if ms ≠ [] ∧ left = [] then { after := none, lost := fun n => ms.count n, moved := fun n => told[n] }
  else { after := some { l with hold := .shared left, notices := told }, lost := fun n => ms.count n, moved := noMove }

variable {es : List Sharer} {ms : List Mid}

/-- With nobody left the slot is freed. -/
theorem endSharersEffect_of_gone (some_end : ms ≠ []) (gone : (es.filter fun e => e.master ∉ ms) = []) :
    endSharersEffect s l es ms =
      { after := none, lost := fun n => ms.count n, moved := fun n => (s.raised l.notices .expired ms)[n] } :=
  if_pos ⟨some_end, gone⟩

/-- With somebody left the lease stays. -/
theorem endSharersEffect_of_left (left : (es.filter fun e => e.master ∉ ms) ≠ []) :
    endSharersEffect s l es ms =
      { after :=
          some
            { l with hold := .shared (es.filter fun e => e.master ∉ ms), notices := s.raised l.notices .expired ms }
        lost := fun n => ms.count n, moved := noMove } :=
  if_neg fun h => left h.2

/-- With no term ended nothing changes. -/
theorem endSharersEffect_of_nobody (hold : l.hold = .shared es) :
    endSharersEffect s l es [] = .unchanged (some l) := by
  have all : (es.filter fun e => e.master ∉ ([] : List Mid)) = es := by simp
  rw [endSharersEffect, if_neg fun h => h.1 rfl, all, raised_nil, ← hold]
  rfl

/-- The ends of several sharer terms, one by one in list order. -/
theorem touches_endSharerTerms (distinct : (es.map Sharer.master).Nodup)
    (once : ms.Nodup) (sharers : ∀ m ∈ ms, m ∈ es.map Sharer.master) (holds : s.lease k = some l)
    (hold : l.hold = .shared es) :
    s.Touches k (endSharersEffect s l es ms).after (endSharersEffect s l es ms).lost (endSharersEffect s l es ms).moved
      (ms.foldl (fun s m => s.endSharerTerm k m) s) := by
  induction ms generalizing s l es with
  | nil =>
    rw [endSharersEffect_of_nobody hold, SlotEffect.unchanged, ← holds]
    exact .refl s k
  | cons m ms ih =>
    obtain ⟨fresh, once⟩ := List.nodup_cons.1 once
    have told := touches_notify s k .expired m
    rw [holds, Option.map_some] at told
    have shares : l.hold.shares m = true := by
      have := sharers m (by simp)
      simpa [Hold.shares, Hold.sharers, hold] using this
    have others : l.hold.others m = es.filter fun e => e.master ≠ m := by rw [hold]; rfl
    have one : ∀ n, (if n = m then 1 else 0) + ms.count n = (m :: ms).count n := by
      intro n
      rw [List.count_cons, Nat.add_comm]
      by_cases e : n = m
      · subst e; simp
      · simp [e, Ne.symm e]
    rw [List.foldl_cons, endSharerTerm]
    by_cases last : l.hold.others m = []
    · have alone : ms = [] := by
        refine List.eq_nil_iff_forall_not_mem.2 fun x hx => ?_
        obtain ⟨e, he, rfl⟩ := List.mem_map.1 (sharers x (by simp [hx]))
        rw [others, List.filter_eq_nil_iff] at last
        have same : e.master = m := by simpa using last e he
        exact fresh (same ▸ hx)
      subst alone
      rw [endSharersEffect_of_gone (by simp) (by simpa [others] using last)]
      exact (told.andThen (touches_endMembership_last told.lease_same shares last)).cast rfl (fun n => one n)
        (fun n => rfl)
    · have here := told.andThen (touches_endMembership_other told.lease_same shares last)
      have rest := ih (s := (s.notify k .expired m).endMembership k m) (es := es.filter fun e => e.master ≠ m)
        (distinct.sublist (List.filter_sublist.map _)) once
        (fun x hx => by
          obtain ⟨e, he, rfl⟩ := List.mem_map.1 (sharers x (by simp [hx]))
          have apart : e.master ≠ m := fun h => fresh (by rwa [h] at hx)
          exact List.mem_map_of_mem (List.mem_filter.2 ⟨he, by simpa using apart⟩))
        here.lease_same (by rw [← others])
      have both : ((es.filter fun e => e.master ≠ m).filter fun e => e.master ∉ ms) =
          es.filter fun e => e.master ∉ m :: ms := by
        rw [List.filter_filter]
        congr 1
        funext e
        simp [Bool.and_comm]
      have heard : ((s.notify k .expired m).endMembership k m).raised (s.raised l.notices .expired [m]) .expired ms =
          s.raised l.notices .expired (m :: ms) := by
        rw [raised_congr here.attached, raised_raised]; rfl
      by_cases left : (es.filter fun e => e.master ∉ m :: ms) = []
      · have more : ms ≠ [] := by
          rintro rfl
          exact last (by rw [others]; simpa using left)
        rw [endSharersEffect_of_gone more (both.trans left), heard] at rest
        rw [endSharersEffect_of_gone (by simp) left]
        exact (here.trans rest).cast rfl one (fun n => by simp [noMove])
      · rw [endSharersEffect_of_left (by rwa [both]), heard, both] at rest
        rw [endSharersEffect_of_left left]
        exact (here.trans rest).cast rfl one (fun n => rfl)

/-! ### A tick of one slot (Table 4-2) -/

/-- The sharers whose terms a tick ends (R79). -/
def sharersOut (es : List Sharer) : List Mid := (es.filter fun e => e.term.remaining ≤ 1).map Sharer.master

/-- The sharers that a tick warns (R78). -/
def sharersWarned (level : Nat) (es : List Sharer) : List Mid :=
  (es.filter fun e => e.term.lower.warns level).map Sharer.master

/-- A SHARED lease with every sharer's term lowered and the warnings raised (R78). -/
def sharersTicked (s : State) (l : Lease) (es : List Sharer) : Lease :=
  { l with
    hold := .shared (es.map (Sharer.tick s.time.warnLevel))
    notices := s.raised l.notices .warned (sharersWarned s.time.warnLevel es) }

/-- Lowering the sharers of a SHARED lease with their warnings, before any membership ends. -/
theorem touches_warnSharers {es : List Sharer} (holds : s.lease k = some l) :
    s.Touches k (some (s.sharersTicked l es)) noLoss noMove
      ((s.setSharers k (es.map (Sharer.tick s.time.warnLevel))).notifyAll k .warned (sharersWarned s.time.warnLevel es)) := by
  simp only [setSharers, holds]
  refine ((touches_setLease ..).andThen (touches_notifyAll ..)).cast ?_ (fun _ => rfl) (fun _ => rfl)
  rw [(touches_setLease ..).lease_same]
  rfl

/-- What a tick does to a slot. -/
def tickEffect (s : State) (l : Option Lease) : SlotEffect :=
  match l with
  | none => .unchanged none
  | some l =>
    match l.hold with
    | .held o tag n c =>
      if n.remaining ≤ 1 then
        if s.time.graceLength = 0 then
          { after := some (s.graceEnded l o), lost := fun n => if n = o then 1 else 0, moved := noMove }
        else .unchanged (some (s.termEnded l o tag n c))
      else if n.lower.warns s.time.warnLevel then
        .unchanged
          (some
            { l with
              hold := .held o tag { n.lower with warned := true } c
              notices := s.raised l.notices .warned [o] })
      else .unchanged (some { l with hold := .held o tag n.lower c })
    | .grace o tag n c left =>
      if left ≤ 1 then
        { after := some (s.graceEnded l o), lost := fun n => if n = o then 1 else 0, moved := noMove }
      else .unchanged (some { l with hold := .grace o tag n c (left - 1) })
    | .shared es =>
      endSharersEffect s (s.sharersTicked l es) (es.map (Sharer.tick s.time.warnLevel)) (sharersOut es)
    | _ => .unchanged (some l)

theorem touches_tickSlot (s : State) (k : SlotIx)
    (distinct : ∀ l es, s.lease k = some l → l.hold = .shared es → (es.map Sharer.master).Nodup) :
    s.Touches k (tickEffect s (s.lease k)).after (tickEffect s (s.lease k)).lost (tickEffect s (s.lease k)).moved
      (s.tickSlot k) := by
  cases holds : s.lease k with
  | none =>
    simp only [tickSlot, tickEffect, holds]
    rw [← holds]; exact .refl s k
  | some l =>
    simp only [tickSlot, tickEffect, holds]
    cases hold : l.hold with
    | held o tag n c =>
      simp only
      by_cases out : n.remaining ≤ 1
      · by_cases grace : s.time.graceLength = 0
        · simp only [out, grace, if_true]
          rw [endTerm_of_no_grace holds hold grace]
          exact touches_endGrace holds (by rw [hold]; rfl)
        · simp only [out, grace, if_true, if_false]
          exact touches_endTerm holds hold grace
      · by_cases warns : n.lower.warns s.time.warnLevel = true
        · simp only [out, warns, if_true, if_false]
          exact ((touches_setLease ..).andThen (touches_notify ..)).cast
            (by rw [(touches_setLease ..).lease_same]; rfl) (fun _ => rfl) (fun _ => rfl)
        · simp only [out, warns, if_false]
          exact touches_setLease ..
    | grace o tag n c left =>
      simp only
      by_cases out : left ≤ 1
      · simp only [out, if_true]
        exact touches_endGrace holds (by rw [hold]; rfl)
      · simp only [out, if_false]
        exact touches_setLease ..
    | tainted o tag => simp only; rw [← holds]; exact .refl s k
    | scrub o tag => simp only; rw [← holds]; exact .refl s k
    | shared es =>
      have each := distinct l es holds hold
      have warned := touches_warnSharers (es := es) holds
      simp only [tickShared]
      have ends := touches_endSharerTerms (l := s.sharersTicked l es) (es := es.map (Sharer.tick s.time.warnLevel))
        (ms := sharersOut es) (by simpa [Function.comp_def] using each)
        (each.sublist (List.filter_sublist.map _))
        (fun m hm => by
          obtain ⟨e, he, rfl⟩ := List.mem_map.1 hm
          simpa [Function.comp_def] using ⟨e, (List.mem_filter.1 he).1, rfl⟩)
        warned.lease_same rfl
      refine (warned.andThen ends).cast ?_ (fun n => ?_) (fun n => ?_) <;>
        simp only [endSharersEffect, raised_congr warned.attached]

theorem tickEffect_congr (view : s.SameView t) (l : Option Lease) : tickEffect t l = tickEffect s l := by
  cases l with
  | none => rfl
  | some l =>
    simp only [tickEffect, graceEnded, termEnded, sharersTicked, endSharersEffect, raised_congr view.attached,
      view.supmid, view.time]

end State

end Sys2Proof.Machine
end

section
/-! PROOF. Grants: what makes a claim grantable (R47), what one grant of a pass does (R63), and that a grant pass is such
grants one after another (R61 to R64). -/

namespace Sys2Proof.Machine

/-! ### The three ways to be blocked (R47) -/

theorem Lease.conflicts_iff {l : Lease} {mode : Mode} {r : Range} :
    l.conflicts mode r = true ↔ State.LeaseBlocks mode r l := by
  simp [Lease.conflicts, State.LeaseBlocks]

theorem Lease.sharedOver_iff {l : Lease} {r : Range} : l.sharedOver r = true ↔ l.hold.mode = .shared ∧ l.range = r := by
  simp [Lease.sharedOver]

/-- A hold of a SHARED lease is a sharer list. -/
theorem Hold.mode_shared_iff {h : Hold} : h.mode = .shared ↔ ∃ es, h = .shared es := by
  cases h <;> simp [Hold.mode]

namespace State

variable {s t u : State} {c : Claim} {k : SlotIx}

/-- The lowest-numbered FREE slot (R18). -/
theorem findFree_eq_some : s.findFree = some k ↔ s.lease k = none ∧ ∀ j, j < k → s.lease j ≠ none := by
  simp only [findFree, allSlots, List.finRange, List.find?_ofFn_eq_some]
  constructor
  · rintro ⟨free, j, rfl, low⟩
    exact ⟨by simpa using free, fun i hi => by simpa using low i hi⟩
  · rintro ⟨free, low⟩
    exact ⟨by simpa using free, k, rfl, fun j hj => by simpa using low j hj⟩

theorem findFree_eq_none : s.findFree = none ↔ ∀ k, s.lease k ≠ none := by
  simp [findFree, List.find?_eq_none]

/-- A claim has a blocking slot exactly when a lease blocks it. -/
theorem blockingSlot_isSome_iff : (s.blockingSlot c).isSome = true ↔ s.BlockedByLease c.mode c.range := by
  rw [Option.isSome_iff_ne_none, ne_eq, blockingSlot, findLease_eq_none]
  simp only [BlockedByLease, not_forall, Bool.not_eq_false, Lease.conflicts_iff, Option.mem_def, exists_prop]

theorem blockingSlot_eq_none_iff : s.blockingSlot c = none ↔ ¬s.BlockedByLease c.mode c.range := by
  rw [← blockingSlot_isSome_iff, Option.not_isSome_iff_eq_none]

/-- The WAITING entries that block a claim, as the statements have them. -/
theorem entryBlocks_eq (e : ClaimEntry) : (e.isWaiting && e.claim.conflicts c) = EntryBlocks c.mode c.range e := by
  simp only [EntryBlocks, Claim.conflicts, Bool.and_assoc, Bool.or_comm]

theorem blockingCount_eq (older : List ClaimEntry) :
    blockingCount older c = older.countP (EntryBlocks c.mode c.range) := by
  simp only [blockingCount, entryBlocks_eq]

theorem blockingCount_eq_zero_iff {older : List ClaimEntry} :
    blockingCount older c = 0 ↔ ∀ x ∈ older, EntryBlocks c.mode c.range x = false := by
  simp [blockingCount_eq, List.countP_eq_zero]

/-- The lease a SHARED claim joins is the lowest-numbered SHARED one of exactly its range. -/
theorem joinSlot_eq_some : s.joinSlot c = some k ↔
    c.mode = .shared ∧ (∃ l, s.lease k = some l ∧ l.hold.mode = .shared ∧ l.range = c.range) ∧
      ∀ j l, j < k → s.lease j = some l → l.hold.mode = .shared → l.range ≠ c.range := by
  by_cases shared : c.mode = .shared
  · simp only [joinSlot, shared, if_true, findLease_eq_some, Lease.sharedOver_iff, true_and]
    refine and_congr_right fun _ => ⟨fun low j l below holds mode range => ?_, fun low j below l holds => ?_⟩
    · have := low j below l holds
      simp [Lease.sharedOver, mode, range] at this
    · have := low j l below holds
      by_cases mode : l.hold.mode = .shared <;> simp_all [Lease.sharedOver]
  · simp [joinSlot, shared]

theorem joinSlot_eq_none : s.joinSlot c = none ↔
    (c.mode = .shared → ∀ k l, s.lease k = some l → l.hold.mode = .shared → l.range ≠ c.range) := by
  by_cases shared : c.mode = .shared
  · simp only [joinSlot, shared, if_true, findLease_eq_none, true_imp_iff]
    refine forall_congr' fun k => forall_congr' fun l => imp_congr_right fun _ => ?_
    simp [Lease.sharedOver]
  · simp [joinSlot, shared]

/-- A claim has no place exactly when it is short of a slot (R47). -/
theorem placeFor_eq_none_iff : s.placeFor c = none ↔ s.ShortOfSlot c.mode c.range := by
  unfold placeFor ShortOfSlot
  cases join : s.joinSlot c with
  | some k =>
    obtain ⟨shared, ⟨l, holds, mode, range⟩, -⟩ := joinSlot_eq_some.1 join
    simp only [false_iff, not_and, reduceCtorEq]
    exact fun _ none => none shared k l holds mode range
  | none =>
    simp only [Option.map_eq_none_iff, findFree_eq_none, Option.mem_def]
    exact (and_iff_left (joinSlot_eq_none.1 join)).symm

theorem placeFor_of_join (join : s.joinSlot c = some k) : s.placeFor c = some (.join k) := by
  simp only [placeFor, join]

theorem placeFor_of_fresh (join : s.joinSlot c = none) (free : s.findFree = some k) :
    s.placeFor c = some (.fresh k) := by
  simp only [placeFor, join, free, Option.map_some]

/-- Where a claim can go: it joins, or there is nothing to join and it takes the lowest FREE slot. -/
theorem placeFor_eq_some {p : Place} (h : s.placeFor c = some p) :
    (∃ k, p = .join k ∧ s.joinSlot c = some k) ∨ ∃ k, p = .fresh k ∧ s.joinSlot c = none ∧ s.findFree = some k := by
  unfold placeFor at h
  cases join : s.joinSlot c with
  | some k => rw [join] at h; exact .inl ⟨k, by simpa using h.symm, rfl⟩
  | none =>
    rw [join] at h
    obtain ⟨k, free, rfl⟩ := Option.map_eq_some_iff.1 h
    exact .inr ⟨k, rfl, rfl, free⟩

/-- A claim is grantable unless it is blocked in one of the three ways. -/
theorem grantable_eq_none_iff {older : List ClaimEntry} : s.grantable older c = none ↔
    s.BlockedByLease c.mode c.range ∨ (∃ x ∈ older, EntryBlocks c.mode c.range x = true) ∨
      s.ShortOfSlot c.mode c.range := by
  have count : blockingCount older c ≠ 0 ↔ ∃ x ∈ older, EntryBlocks c.mode c.range x = true := by
    rw [ne_eq, blockingCount_eq_zero_iff]
    simp
  unfold grantable
  split
  · rename_i blocked
    rw [blockingSlot_isSome_iff, count] at blocked
    exact ⟨fun _ => blocked.imp_right .inl, fun _ => rfl⟩
  · rename_i clear
    rw [blockingSlot_isSome_iff, count, not_or] at clear
    rw [placeFor_eq_none_iff]
    exact ⟨fun short => .inr (.inr short), fun h => (h.resolve_left clear.1).resolve_left clear.2⟩

/-- The entries a pass does not grant, as the statements have them. -/
theorem passPlace_eq_none_iff {older : List ClaimEntry} {e : ClaimEntry} :
    s.passPlace older e = none ↔ s.PassedOver older e := by
  have own : (s.overlapsOwn e.claim).isSome = true ↔
      ∃ k, ∃ l ∈ s.lease k, l.range.overlaps e.claim.range = true ∧ l.hold.role e.claim.master ≠ .outsider ∧
        l.hold.role e.claim.master ≠ .formerOwner := by
    rw [Option.isSome_iff_ne_none, ne_eq, overlapsOwn, findLease_eq_none]
    simp [Hold.holdsRole]
  unfold passPlace PassedOver
  by_cases waiting : e.isWaiting = true
  · by_cases overlaps : (s.overlapsOwn e.claim).isSome = true
    · simp only [waiting, overlaps, if_true, true_iff]
      exact .inr (.inr (.inr (.inr (own.1 overlaps))))
    · simp only [waiting, overlaps, if_true, if_false, grantable_eq_none_iff, ← own, Bool.true_eq_false, false_or,
        or_false, Bool.false_eq_true]
  · simp [waiting]

/-- An entry that is not passed over gets the place where its claim can go. -/
theorem passPlace_of_not_passedOver {older : List ClaimEntry} {e : ClaimEntry} {p : Place}
    (not_passed : ¬s.PassedOver older e) (place : s.placeFor e.claim = some p) : s.passPlace older e = some p := by
  obtain ⟨q, found⟩ := Option.ne_none_iff_exists'.1 (mt passPlace_eq_none_iff.1 not_passed)
  have at_q : s.placeFor e.claim = some q := by
    unfold passPlace at found
    split at found
    · split at found
      · cases found
      · exact ((grantable_eq_some s).1 found).2.2
    · cases found
  rw [found, ← at_q, place]

/-! ### One grant (R48, R49, R63) -/

/-- From `s` to `t` the claim `c`, which no lease blocks, is granted in slot `k`: it joins the SHARED lease of exactly its
range, or takes a FREE slot under the next generation where there is none to join. Other masters' notices stay. -/
structure Grants (s : State) (c : Claim) (k : SlotIx) (t : State) : Prop where
  unblocked : ∀ j l, s.lease j = some l → l.range.overlaps c.range = true → c.mode = .shared ∧ l.hold.mode = .shared
  placed :
    (∃ l es ns, c.mode = .shared ∧ s.lease k = some l ∧ l.hold = .shared es ∧ l.range = c.range ∧
      t.slot k = { gen := (s.slot k).gen, lease := some { l with hold := .shared (es ++ [c.sharer]), notices := ns } } ∧
      ∀ n : Mid, n ≠ c.master → ns[n] = l.notices[n]) ∨
    (s.lease k = none ∧
      (c.mode = .shared → ∀ j l, s.lease j = some l → l.hold.mode = .shared → l.range ≠ c.range) ∧
      ∃ ns, t.slot k = { gen := (s.slot k).gen + 1, lease := some { c.newLease with notices := ns } } ∧
        ∀ n : Mid, n ≠ c.master → ns[n] = none)
  others : ∀ j, k ≠ j → t.slot j = s.slot j

/-- What a lease that a claim does not conflict with must be. -/
theorem unblocked_of_grantable {older : List ClaimEntry} {p : Place} (h : s.grantable older c = some p) (j : SlotIx)
    (l : Lease) (holds : s.lease j = some l) (overlaps : l.range.overlaps c.range = true) :
    c.mode = .shared ∧ l.hold.mode = .shared := by
  have clear := blockingSlot_eq_none_iff.1 ((grantable_eq_some s).1 h).1
  have shared : ∀ m : Mode, m ≠ .exclusive → m = .shared := fun m => by cases m <;> simp
  exact ⟨shared _ fun e => clear ⟨j, l, holds, overlaps, .inl e⟩, shared _ fun e => clear ⟨j, l, holds, overlaps, .inr e⟩⟩

/-- A new grant has no notices. -/
theorem noticeSet_empty_get (n : Mid) : NoticeSet.empty[n] = none := by simp [NoticeSet.empty]

/-- A grant at a place where the claim can go. -/
theorem grantAt_slot {older : List ClaimEntry} {p : Place} (h : s.grantable older c = some p) :
    (∃ k l es, p = .join k ∧ s.lease k = some l ∧ l.hold = .shared es ∧
      s.grantAt c p = (s.setLease k { l with hold := .shared (es ++ [c.sharer]) }).raiseHeld c.master) ∨
    ∃ k, p = .fresh k ∧ s.lease k = none ∧
      s.grantAt c p =
        (s.setSlot k { gen := (s.slot k).gen + 1, lease := some c.newLease }).raiseHeld c.master := by
  rcases placeFor_eq_some ((grantable_eq_some s).1 h).2.2 with ⟨k, rfl, join⟩ | ⟨k, rfl, -, free⟩
  · obtain ⟨-, ⟨l, holds, mode, -⟩, -⟩ := joinSlot_eq_some.1 join
    obtain ⟨es, hold⟩ := Hold.mode_shared_iff.1 mode
    refine .inl ⟨k, l, es, rfl, holds, hold, ?_⟩
    rw [grantAt_join s holds, Lease.withSharer, hold]
  · exact .inr ⟨k, rfl, (findFree_eq_some.1 free).1, rfl⟩

/-- A grant at submission (R48, R49). -/
theorem grants_grantAt {older : List ClaimEntry} {p : Place} (h : s.grantable older c = some p) :
    s.Grants c p.slot (s.grantAt c p) where
  unblocked := unblocked_of_grantable h
  placed := by
    rcases placeFor_eq_some ((grantable_eq_some s).1 h).2.2 with ⟨k, rfl, join⟩ | ⟨k, rfl, join, free⟩
    · obtain ⟨shared, ⟨l, holds, mode, range⟩, -⟩ := joinSlot_eq_some.1 join
      obtain ⟨es, hold⟩ := Hold.mode_shared_iff.1 mode
      refine .inl ⟨l, es, l.notices, shared, holds, hold, range, ?_, fun _ _ => rfl⟩
      rw [grantAt_join s holds, Lease.withSharer, hold]
      simp [Place.slot]
    · refine .inr ⟨(findFree_eq_some.1 free).1, joinSlot_eq_none.1 join, NoticeSet.empty, ?_, fun n _ =>
        noticeSet_empty_get n⟩
      simp [grantAt, Place.slot, Claim.newLease]
  others j apart := by
    cases p with
    | join k =>
      simp only [grantAt]
      split
      · rfl
      · simp only [slot_raiseHeld, slot_setLease]
        simp only [Place.slot] at apart
        simp [apart, lease]
    | fresh k =>
      simp only [Place.slot] at apart
      simp [grantAt, apart]

/-- The counts after a grant at submission (R128). -/
theorem master_grantAt {older : List ClaimEntry} {p : Place} (h : s.grantable older c = some p) (n : Mid) :
    (s.grantAt c p).master n =
      if n = c.master then { s.master c.master with held := (s.master c.master).held + 1 } else s.master n := by
  rcases grantAt_slot h with ⟨k, l, es, rfl, -, -, e⟩ | ⟨k, rfl, -, e⟩ <;>
    simp only [e, master_raiseHeld, master_setLease, master_setSlot, eq_comm (a := n)]

/-- The slots of a grant in a pass: those of a grant, with GRANTED raised (R63). -/
theorem grantInPass_touches (s : State) (c : Claim) (p : Place) :
    ((s.grantAt c p).lowerWaiting c.master).Touches p.slot
      (((s.grantAt c p).lease p.slot).map fun l =>
        { l with notices := ((s.grantAt c p).lowerWaiting c.master).raised l.notices .granted [c.master] })
      noLoss noMove (s.grantInPass c p) :=
  (touches_notify ((s.grantAt c p).lowerWaiting c.master) p.slot .granted c.master).cast (by simp) (fun _ => rfl)
    fun _ => rfl

/-- A grant only changes counts, so it leaves who is ATTACHED. -/
theorem attached_grantAt_lowerWaiting (s : State) (c : Claim) (p : Place) :
    ((s.grantAt c p).lowerWaiting c.master).attached = s.attached := by
  have grant : (s.grantAt c p).attached = s.attached := by
    funext n
    cases p with
    | join k =>
      simp only [grantAt]
      split
      · rfl
      · simp only [attached, master_raiseHeld, master_setLease]
        split <;> simp_all
    | fresh k =>
      simp only [grantAt, attached, master_raiseHeld, master_setSlot]
      split <;> simp_all
  funext n
  rw [← grant]
  simp only [attached, master_lowerWaiting]
  split <;> simp_all

/-- A grant in a pass (R63). -/
theorem grants_grantInPass {older : List ClaimEntry} {p : Place} (h : s.grantable older c = some p) :
    s.Grants c p.slot (s.grantInPass c p) := by
  have grant := grants_grantAt h
  have told := grantInPass_touches s c p
  have apart : ∀ (ns : NoticeSet) (n : Mid), n ≠ c.master →
      (((s.grantAt c p).lowerWaiting c.master).raised ns .granted [c.master])[n] = ns[n] := by
    intro ns n ne
    rw [raised_get, if_neg (by simp [ne])]
  have here : (s.grantInPass c p).slot p.slot =
      { gen := ((s.grantAt c p).slot p.slot).gen
        lease := ((s.grantAt c p).lease p.slot).map fun l =>
          { l with notices := ((s.grantAt c p).lowerWaiting c.master).raised l.notices .granted [c.master] } } := by
    rw [told.slot, if_pos rfl, slot_lowerWaiting]
  refine ⟨grant.unblocked, ?_, fun j ne => ?_⟩
  · rcases grant.placed with ⟨l, es, ns, shared, holds, hold, range, slot, same⟩ | ⟨free, alone, ns, slot, same⟩
    · refine .inl ⟨l, es, _, shared, holds, hold, range, ?_, fun n ne => (apart ns n ne).trans (same n ne)⟩
      rw [here, lease, slot]; rfl
    · refine .inr ⟨free, alone, _, ?_, fun n ne => (apart ns n ne).trans (same n ne)⟩
      rw [here, lease, slot]; rfl
  · rw [told.slot, if_neg ne, slot_lowerWaiting, lease_lowerWaiting, lease, grant.others j ne]

/-- The counts after a grant in a pass (R63, R128). -/
theorem master_grantInPass {older : List ClaimEntry} {p : Place} (h : s.grantable older c = some p) (n : Mid) :
    (s.grantInPass c p).master n =
      if n = c.master then
        { s.master c.master with
          held := (s.master c.master).held + 1, waiting := (s.master c.master).waiting - 1 }
      else s.master n := by
  have told := grantInPass_touches s c p
  have same : (s.grantInPass c p).master n = ((s.grantAt c p).lowerWaiting c.master).master n := by
    rw [told.master]; rfl
  rw [same, master_lowerWaiting, master_grantAt h, master_grantAt h]
  by_cases e : n = c.master
  · simp [e]
  · simp [e, Ne.symm e]

/-! ### The pass (R61, R62) -/

/-- One grant of a pass: an entry that is not passed over leaves the queue and is granted. -/
inductive PassGrant (s : State) : State → Prop
  | intro {older rest : List ClaimEntry} {e : ClaimEntry} {p : Place} (queue : s.queue = older ++ e :: rest)
      (place : s.passPlace older e = some p) : PassGrant s ((s.grantInPass e.claim p).setQueue (older ++ rest))

/-- What a pass asks of an entry that it grants. -/
theorem passPlace_eq_some {older : List ClaimEntry} {e : ClaimEntry} {p : Place} (h : s.passPlace older e = some p) :
    e.isWaiting = true ∧ s.overlapsOwn e.claim = none ∧ s.grantable older e.claim = some p := by
  unfold passPlace at h
  split at h
  · split at h
    · cases h
    · rename_i waiting clear
      exact ⟨waiting, by simpa using clear, h⟩
  · cases h

/-- Granting does not look at the queue. -/
theorem grantInPass_setQueue (s : State) (q : List ClaimEntry) (c : Claim) (p : Place) :
    (s.setQueue q).grantInPass c p = (s.grantInPass c p).setQueue q := by
  have grant : (s.setQueue q).grantAt c p = (s.grantAt c p).setQueue q := by
    cases p with
    | join k => simp only [grantAt, lease_setQueue]; cases s.lease k <;> rfl
    | fresh k => rfl
  have tell : ∀ (u : State) (k : SlotIx) (x : NoticeKind) (m : Mid),
      (u.setQueue q).notify k x m = (u.notify k x m).setQueue q := by
    intro u k x m
    have view : (u.setQueue q).attached m = u.attached m := rfl
    simp only [notify, view, lease_setQueue]
    split
    · cases u.lease k <;> rfl
    · rfl
  rw [grantInPass, grant]
  exact tell ((s.grantAt c p).lowerWaiting c.master) _ _ _

/-- A queue set and set again. -/
@[simp] theorem setQueue_setQueue (s : State) (q q' : List ClaimEntry) : (s.setQueue q).setQueue q' = s.setQueue q' := rfl

/-- A queue set to what it is. -/
theorem setQueue_self (s : State) : s.setQueue s.queue = s := rfl

/-- The scan grants entry after entry. -/
theorem passGrants_grantScan (older rest : List ClaimEntry) (s : State) :
    Relation.ReflTransGen PassGrant (s.setQueue (older ++ rest)) (grantScan older rest s) := by
  induction rest generalizing older s with
  | nil => rw [List.append_nil]; exact .refl
  | cons e rest ih =>
    simp only [grantScan]
    cases place : s.passPlace older e with
    | none =>
      have later := ih (older ++ [e]) s
      rwa [List.append_assoc] at later
    | some p =>
      refine .head ?_ (ih older (s.grantInPass e.claim p))
      have first := PassGrant.intro (s := s.setQueue (older ++ e :: rest)) (older := older) (rest := rest) (e := e) rfl
        place
      rwa [grantInPass_setQueue, setQueue_setQueue] at first

/-- A grant pass is a run of grants (R61). -/
theorem passGrants_grantPass (s : State) : Relation.ReflTransGen PassGrant s s.grantPass :=
  passGrants_grantScan [] s.queue s

/-- What every grant of a pass keeps, a pass keeps. -/
theorem grantPass_induction {P : State → Prop} (each : ∀ s t, PassGrant s t → P s → P t) (start : P s) :
    P s.grantPass := by
  have run := passGrants_grantPass s
  generalize s.grantPass = last at run
  induction run with
  | refl => exact start
  | tail _ last ih => exact each _ _ last ih

/-- A scan of entries that are all passed over leaves them (R62). -/
theorem grantScan_of_passedOver {older rest : List ClaimEntry}
    (h : ∀ front x back, rest = front ++ x :: back → s.passPlace (older ++ front) x = none) :
    grantScan older rest s = s.setQueue (older ++ rest) := by
  induction rest generalizing older with
  | nil => rw [List.append_nil]; rfl
  | cons e rest ih =>
    have first := h [] e rest rfl
    rw [List.append_nil] at first
    simp only [grantScan, first]
    rw [ih fun front x back split => by
      rw [List.append_assoc]
      exact h (e :: front) x back (by rw [split]; rfl), List.append_assoc]
    rfl

/-- A scan passes over some entries and goes on with the next. -/
theorem grantScan_skip {older front : List ClaimEntry} {rest : List ClaimEntry}
    (h : ∀ a x b, front = a ++ x :: b → s.passPlace (older ++ a) x = none) :
    grantScan older (front ++ rest) s = grantScan (older ++ front) rest s := by
  induction front generalizing older with
  | nil => simp
  | cons e front ih =>
    have first := h [] e front rfl
    rw [List.append_nil] at first
    simp only [List.cons_append, grantScan, first]
    rw [ih fun a x b split => by
      rw [List.append_assoc]
      exact h (e :: a) x b (by rw [split]; rfl), List.append_assoc]
    rfl

/-- The scan does not look at the queue. -/
theorem grantScan_setQueue (older rest : List ClaimEntry) (s : State) (q : List ClaimEntry) :
    grantScan older rest (s.setQueue q) = grantScan older rest s := by
  induction rest generalizing older s with
  | nil => rfl
  | cons e rest ih =>
    have view : (s.setQueue q).passPlace older e = s.passPlace older e := rfl
    simp only [grantScan, view]
    cases s.passPlace older e with
    | none => exact ih _ s
    | some p =>
      simp only [grantInPass_setQueue]
      exact ih _ _

/-! ### What a pass leaves waiting stays so (R64) -/

/-- A grant in slot `k` leaves every other lease, and a lease it joins stays SHARED over its range. -/
theorem Grants.kept (h : s.Grants c k t) {j : SlotIx} {l : Lease} (holds : s.lease j = some l) :
    ∃ l', t.lease j = some l' ∧ l'.range = l.range ∧ l'.hold.mode = l.hold.mode ∧
      ∀ m, l.hold.role m ≠ .outsider → l'.hold.role m = l.hold.role m := by
  by_cases here : k = j
  · subst here
    rcases h.placed with ⟨l₀, es, ns, -, holds₀, hold, -, slot, -⟩ | ⟨free, -⟩
    · obtain rfl : l = l₀ := by rw [holds] at holds₀; exact Option.some.inj holds₀
      refine ⟨_, congrArg Slot.lease slot, rfl, by rw [hold]; rfl, fun m inside => ?_⟩
      rw [hold] at inside ⊢
      simp only [Hold.role, List.any_append] at inside ⊢
      split at inside
      · rename_i shares; simp [shares]
      · exact absurd rfl inside
    · rw [free] at holds; cases holds
  · refine ⟨l, ?_, rfl, rfl, fun _ _ => rfl⟩
    rw [lease, h.others j here]
    exact holds

/-- Every lease after a grant stood before it, in its range and mode, or is the one granted. -/
theorem Grants.came (h : s.Grants c k t) {j : SlotIx} {l : Lease} (holds : t.lease j = some l) :
    (∃ l', s.lease j = some l' ∧ l.range = l'.range ∧ l.hold.mode = l'.hold.mode) ∨
      (j = k ∧ s.lease k = none ∧ l.range = c.range ∧ l.hold.mode = c.mode) := by
  by_cases here : k = j
  · subst here
    rcases h.placed with ⟨l₀, es, ns, -, holds₀, hold, -, slot, -⟩ | ⟨free, -, ns, slot, -⟩
    · refine .inl ⟨l₀, holds₀, ?_⟩
      rw [lease, slot] at holds
      obtain rfl := Option.some.inj holds
      exact ⟨rfl, by rw [hold]; rfl⟩
    · refine .inr ⟨rfl, free, ?_⟩
      rw [lease, slot] at holds
      obtain rfl := Option.some.inj holds
      refine ⟨rfl, ?_⟩
      simp only [Claim.newLease]
      cases c.mode <;> rfl
  · rw [lease, h.others j here] at holds
    exact .inl ⟨l, holds, rfl, rfl⟩

/-- An entry passed over stays so after a grant in the same pass: a grant only adds leases and sharers. -/
theorem Grants.passedOver (h : s.Grants c k t) {older : List ClaimEntry} {e : ClaimEntry} (passed : s.PassedOver older e) :
    t.PassedOver older e := by
  rcases passed with ended | ⟨j, l, holds, overlaps, mode⟩ | entry | ⟨full, alone⟩ | ⟨j, l, holds, overlaps, inside, owns⟩
  · exact .inl ended
  · obtain ⟨l', holds', range, mode', -⟩ := h.kept holds
    exact .inr (.inl ⟨j, l', holds', by rw [range]; exact overlaps, by rw [mode']; exact mode⟩)
  · exact .inr (.inr (.inl entry))
  · refine .inr (.inr (.inr (.inl ⟨fun j free => ?_, fun shared j l holds mode => ?_⟩)))
    · cases was : s.lease j with
      | none => exact full j was
      | some l =>
        obtain ⟨l', holds', -⟩ := h.kept was
        rw [free] at holds'; cases holds'
    · rcases h.came holds with ⟨l', was, range, mode'⟩ | ⟨-, free, -⟩
      · rw [range]
        exact alone shared j l' was (by rw [← mode', mode])
      · exact absurd free (full k)
  · obtain ⟨l', holds', range, -, role⟩ := h.kept holds
    refine .inr (.inr (.inr (.inr ⟨j, l', holds', by rw [range]; exact overlaps, ?_⟩)))
    rw [role _ inside]
    exact ⟨inside, owns⟩

/-- Every entry that waits was passed passed with the entries before it. -/
def Settled (s : State) (older : List ClaimEntry) : Prop :=
  ∀ front x back, older = front ++ x :: back → s.PassedOver front x

/-- A scan leaves only entries that it would pass over again (R64). -/
theorem settled_grantScan {older : List ClaimEntry} (rest : List ClaimEntry) (h : s.Settled older) :
    (grantScan older rest s).Settled (grantScan older rest s).queue := by
  induction rest generalizing older s with
  | nil => exact h
  | cons e rest ih =>
    simp only [grantScan]
    cases place : s.passPlace older e with
    | none =>
      refine ih fun front x back split => ?_
      rcases List.eq_nil_or_concat back with rfl | ⟨back, y, rfl⟩
      · obtain ⟨rfl, last⟩ := List.append_inj' split rfl
        obtain rfl := (List.cons.inj last).1
        exact passPlace_eq_none_iff.1 place
      · rw [List.concat_eq_append, ← List.cons_append, ← List.append_assoc] at split
        exact h front x back (List.append_inj' split rfl).1
    | some p =>
      have grant := grants_grantInPass (passPlace_eq_some place).2.2
      exact ih fun front x back split => grant.passedOver (h front x back split)

/-- A pass over entries that are all passed over changes nothing (R62). -/
theorem grantPass_of_settled (h : s.Settled s.queue) : s.grantPass = s := by
  rw [grantPass, grantScan_of_passedOver fun front x back split => passPlace_eq_none_iff.2 (h front x back split)]
  rfl

/-- A second pass changes nothing (R64). -/
theorem grantPass_idem (s : State) : s.grantPass.grantPass = s.grantPass :=
  grantPass_of_settled (settled_grantScan s.queue fun front x back split => by simp at split)

/-- A pass grants the first entry it does not pass over, and goes on as a pass of what is left (R62, R63). -/
theorem grantPass_of_first {older younger : List ClaimEntry} {e : ClaimEntry} {p : Place}
    (queue : s.queue = older ++ e :: younger) (passed : s.Settled older) (place : s.passPlace older e = some p) :
    s.grantPass = ((s.grantInPass e.claim p).setQueue (older ++ younger)).grantPass := by
  have skip : ∀ (t : State) (rest : List ClaimEntry), t.Settled older →
      grantScan [] (older ++ rest) t = grantScan older rest t := by
    intro t rest settled
    exact grantScan_skip fun a x b split => passPlace_eq_none_iff.2 (settled a x b split)
  have grant := grants_grantInPass (passPlace_eq_some place).2.2
  have here : s.grantPass = grantScan older younger (s.grantInPass e.claim p) := by
    rw [grantPass, queue, skip s _ passed]
    simp only [grantScan, place]
  have there : ((s.grantInPass e.claim p).setQueue (older ++ younger)).grantPass =
      grantScan older younger (s.grantInPass e.claim p) := by
    rw [grantPass, setQueue_queue, skip _ younger, grantScan_setQueue]
    exact fun front x back split => grant.passedOver (passed front x back split)
  rw [here, there]

/-- What granting an entry in a pass leaves, in the words of the statement. -/
theorem grantedInPass_of_place {older younger : List ClaimEntry} {e : ClaimEntry} {p : Place} {x : Slot}
    (place : s.passPlace older e = some p) (slot : (s.grantInPass e.claim p).slot p.slot = x) :
    s.GrantedInPass ((s.grantInPass e.claim p).setQueue (older ++ younger)) e (older ++ younger) p.slot x := by
  have grantable := (passPlace_eq_some place).2.2
  refine ⟨?_, slot, fun j ne => (grants_grantInPass grantable).others j (Ne.symm ne), ?_, fun n ne => ?_⟩
  · rw [grantInPass_frame]; rfl
  · rw [master_setQueue, master_grantInPass grantable, if_pos rfl]
  · rw [master_setQueue, master_grantInPass grantable, if_neg ne]

/-- The slot of a pass's grant that joins (R48, R63). -/
theorem slot_grantInPass_join {l : Lease} {es : List Sharer} (holds : s.lease k = some l) (hold : l.hold = .shared es) :
    (s.grantInPass c (.join k)).slot k =
      { gen := (s.slot k).gen
        lease :=
          some
            { l with
              hold := .shared (es ++ [c.sharer]), notices := s.raised l.notices .granted [c.master] } } := by
  have told := grantInPass_touches s c (.join k)
  have grant : (s.grantAt c (.join k)).slot k =
      { gen := (s.slot k).gen, lease := some { l with hold := .shared (es ++ [c.sharer]) } } := by
    rw [grantAt_join s holds, Lease.withSharer, hold]
    simp
  have here := told.slot k
  simp only [Place.slot, if_true, slot_lowerWaiting, lease, grant, Option.map_some,
    raised_congr (attached_grantAt_lowerWaiting s c (.join k))] at here
  exact here

/-- The slot of a pass's grant that takes a FREE slot (R49, R63). -/
theorem slot_grantInPass_fresh :
    (s.grantInPass c (.fresh k)).slot k =
      { gen := (s.slot k).gen + 1
        lease := some { c.newLease with notices := s.raised NoticeSet.empty .granted [c.master] } } := by
  have told := grantInPass_touches s c (.fresh k)
  have grant : (s.grantAt c (.fresh k)).slot k = { gen := (s.slot k).gen + 1, lease := some c.newLease } := by
    simp [grantAt]
  have here := told.slot k
  simp only [Place.slot, if_true, slot_lowerWaiting, lease, grant, Option.map_some,
    raised_congr (attached_grantAt_lowerWaiting s c (.fresh k))] at here
  exact here

end State

end Sys2Proof.Machine

namespace Sys2Proof.Proofs

open Sys2Proof.Machine

/-- Settles O54: the scan meets entries that it passes over and then one that it grants, and a grant leaves the entries
passed over as they are, so that a second pass finds none to grant. -/
theorem grantPassSettles : Obligations.GrantPassSettles := by
  intro s
  refine ⟨fun passed => State.grantPass_of_settled passed, fun older e younger k queue passed not_passed => ⟨?_, ?_⟩,
    State.grantPass_idem s⟩
  · intro l es shared holds hold range lowest
    have join : s.joinSlot e.claim = some k :=
      State.joinSlot_eq_some.2 ⟨shared, ⟨l, holds, by rw [hold]; rfl, range⟩, lowest⟩
    have place := State.passPlace_of_not_passedOver not_passed (State.placeFor_of_join join)
    exact ⟨_, State.grantPass_of_first queue passed place,
      State.grantedInPass_of_place place (State.slot_grantInPass_join holds hold)⟩
  · intro free lowest alone
    have place := State.passPlace_of_not_passedOver not_passed
      (State.placeFor_of_fresh (State.joinSlot_eq_none.2 alone) (State.findFree_eq_some.2 ⟨free, lowest⟩))
    refine ⟨_, State.grantPass_of_first queue passed place, State.grantedInPass_of_place place ?_⟩
    rw [Place.slot, State.slot_grantInPass_fresh]
    simp only [Claim.newLease]
    cases e.claim.mode <;> rfl

end Sys2Proof.Proofs
end

section
/-! PROOF. Changes of the lease table that grant nothing: each lease afterwards descends from the one that stood in its slot,
and the held counts fall by what the table loses (R128). The operations on slots are such changes. -/

namespace Sys2Proof.Machine

/-- `m` has a part in a lease held so: it owns it in its own right, shares it, or has a frame of its chain (R126). -/
def Hold.Involves (h : Hold) (m : Mid) : Prop := h.owner? = some m ∨ h.shares m = true ∨ m ∈ h.chain

namespace State

variable {s t u : State} {k : SlotIx} {l l' : Lease}

/-- The lease of slot `k` is in SCRUB. -/
def InScrub (s : State) (k : SlotIx) : Prop := ∃ l, s.lease k = some l ∧ l.hold.state = .scrub

/-- The lease `l'` can take the place of `l` in slot `k` without a grant: the range stays, EXCLUSIVE comes from SHARED only
where no other lease overlaps, and parts and notices are only for those who had them or are ATTACHED. -/
structure Descends (s : State) (k : SlotIx) (l l' : Lease) : Prop where
  range : l'.range = l.range
  mode : l'.hold.mode = l.hold.mode ∨ l'.hold.mode = .shared ∨
    ∀ j l₂, j ≠ k → s.lease j = some l₂ → l₂.range.overlaps l.range = false
  shape : HoldShape l.hold → HoldShape l'.hold
  involved : ∀ n, l'.hold.Involves n → l.hold.Involves n ∨ s.attached n = true
  notices : ∀ n : Mid, l'.notices[n] ≠ none → l.notices[n] ≠ none ∨ s.attached n = true

/-- From `s` to `t` the lease table changes without a grant, and of the master records only held counts and orphan fields
change. -/
structure Descent (s t : State) : Prop where
  frame : t = { s with slots := t.slots, masters := t.masters }
  gen : ∀ k, (t.slot k).gen = (s.slot k).gen
  lease : ∀ k l', t.lease k = some l' → ∃ l, s.lease k = some l ∧ s.Descends k l l'
  master : ∀ n, t.master n =
    { s.master n with held := (t.master n).held, orphan := (t.master n).orphan }
  orphan : ∀ n, (t.master n).orphan ≠ none → (s.master n).orphan ≠ none ∨ s.attached n = true ∨
    ∃ k l, s.lease k = some l ∧ l.notices[n] ≠ none
  held : (∀ k l, s.lease k = some l → HoldShape l.hold) → ∀ n, t.heldNow n ≤ s.heldNow n ∧
    (t.master n).held = (s.master n).held - (s.heldNow n - t.heldNow n)

theorem Descent.attached (h : s.Descent t) : t.attached = s.attached :=
  funext fun n => by simp only [State.attached]; rw [h.master]

/-! ### A change of one slot -/

/-- How often a master's held count stands in a slot (R128). -/
def holdersCount (l : Option Lease) (n : Mid) : Nat :=
  match l with
  | none => 0
  | some l => l.hold.holders.count n

theorem heldNow_eq (s : State) (n : Mid) : s.heldNow n = (allSlots.map fun k => holdersCount (s.lease k) n).sum := rfl

/-- Two sums over the slots whose terms differ at one slot only. -/
theorem sum_map_of_agree {f g : SlotIx → Nat} {ks : List SlotIx} (distinct : ks.Nodup) (mem : k ∈ ks)
    (agree : ∀ j, k ≠ j → f j = g j) : (ks.map f).sum + g k = (ks.map g).sum + f k := by
  induction ks with
  | nil => cases mem
  | cons j ks ih =>
    obtain ⟨fresh, distinct⟩ := List.nodup_cons.1 distinct
    simp only [List.map_cons, List.sum_cons]
    by_cases here : k = j
    · subst here
      have rest : ks.map f = ks.map g :=
        List.map_congr_left fun i hi => agree i fun e => fresh (e ▸ hi)
      rw [rest]; omega
    · have := ih distinct ((List.mem_cons.1 mem).resolve_left here)
      rw [agree j here]; omega

/-- The held count of the table after a change of one slot. -/
theorem heldNow_of_one (others : ∀ j, k ≠ j → t.lease j = s.lease j) (n : Mid) :
    t.heldNow n + holdersCount (s.lease k) n = s.heldNow n + holdersCount (t.lease k) n :=
  sum_map_of_agree (f := fun j => holdersCount (t.lease j) n) (g := fun j => holdersCount (s.lease j) n) nodup_allSlots
    (mem_allSlots k) fun j ne => by rw [others j ne]

/-- A change of one slot that holds a lease. -/
theorem Touches.descent {after : Option Lease} {lost : Mid → Nat} {moved : Mid → Option NoticeKind}
    (h : s.Touches k after lost moved t) (holds : s.lease k = some l)
    (descends : ∀ l', after = some l' → s.Descends k l l')
    (counts : HoldShape l.hold → ∀ n, lost n + holdersCount after n = l.hold.holders.count n)
    (told : ∀ n : Mid, moved n ≠ none → l.notices[n] ≠ none ∨ s.attached n = true) : s.Descent t where
  frame := h.frame
  gen := h.gen
  lease j l' holds' := by
    by_cases here : k = j
    · subst here
      exact ⟨l, holds, descends l' (by rw [← h.lease_same]; exact holds')⟩
    · rw [h.lease_ne here] at holds'
      exact ⟨l', holds', rfl, .inl rfl, id, fun _ => .inl, fun _ => .inl⟩
  master n := by rw [h.master]
  orphan n some_orphan := by
    rw [h.master] at some_orphan
    simp only [orphanAfter] at some_orphan
    split at some_orphan
    · exact .inl some_orphan
    · rename_i x e
      rcases told n (by rw [e]; simp) with had | att
      · exact .inr (.inr ⟨k, l, holds, had⟩)
      · exact .inr (.inl att)
  held shapes n := by
    have sum := heldNow_of_one (fun j ne => h.lease_ne ne) n
    have count := counts (shapes k l holds) n
    rw [h.lease_same, holds] at sum
    simp only [holdersCount] at sum count
    rw [h.master]
    refine ⟨by omega, ?_⟩
    have : s.heldNow n - t.heldNow n = lost n := by omega
    rw [this]

/-- The slots in SCRUB after a change of one slot that neither enters nor leaves it. -/
theorem Touches.inScrub {after : Option Lease} {lost : Mid → Nat} {moved : Mid → Option NoticeKind}
    (h : s.Touches k after lost moved t) (holds : s.lease k = some l)
    (scrub : (∃ l', after = some l' ∧ l'.hold.state = .scrub) ↔ l.hold.state = .scrub) (j : SlotIx) :
    t.InScrub j ↔ s.InScrub j := by
  by_cases here : k = j
  · subst here
    simp only [InScrub, h.lease_same, scrub, holds, Option.some.injEq, exists_eq_left']
  · simp only [InScrub, h.lease_ne here]

/-- Nothing changed is a change. -/
theorem Descent.refl (s : State) : s.Descent s where
  frame := rfl
  gen _ := rfl
  lease _ l' holds := ⟨l', holds, rfl, .inl rfl, id, fun _ => .inl, fun _ => .inl⟩
  master _ := rfl
  orphan _ := .inl
  held _ _ := ⟨le_rfl, by omega⟩

/-! ### Terms beside (Table 2-1, R30) -/

/-- The terms of the lease table after a change of one slot. -/
theorem TermLaw.of_touches {after : Option Lease} {lost : Mid → Nat} {moved : Mid → Option NoticeKind}
    (law : s.TermLaw) (h : s.Touches k after lost moved t) (terms : ∀ l', after = some l' → HoldTerms l'.hold) :
    t.TermLaw := by
  obtain ⟨leases, queue, pools⟩ := law
  refine ⟨fun j l' holds => ?_, by rw [h.frame]; exact queue, by rw [h.frame]; exact pools⟩
  by_cases here : k = j
  · subst here; exact terms l' (by rw [← h.lease_same]; exact holds)
  · rw [h.lease_ne here] at holds; exact leases j l' holds

/-- Changes of the table one after another, by which no lease enters or leaves SCRUB, and after which the term law holds
where it held before. -/
structure Quiet (s t : State) : Prop where
  steps : Relation.ReflTransGen Descent s t
  scrub : ∀ k, t.InScrub k ↔ s.InScrub k
  terms : s.TermLaw → t.TermLaw

theorem Quiet.refl (s : State) : s.Quiet s := ⟨.refl, fun _ => Iff.rfl, id⟩

theorem Quiet.trans (h : s.Quiet t) (g : t.Quiet u) : s.Quiet u :=
  ⟨h.steps.trans g.steps, fun k => (g.scrub k).trans (h.scrub k), g.terms ∘ h.terms⟩

theorem Quiet.one (h : s.Descent t) (scrub : ∀ k, t.InScrub k ↔ s.InScrub k) (terms : s.TermLaw → t.TermLaw) :
    s.Quiet t := ⟨.single h, scrub, terms⟩

/-- A fold of such changes. -/
theorem Quiet.foldl {α : Type} {f : State → α → State} (each : ∀ s a, Quiet s (f s a)) (as : List α) (s : State) :
    Quiet s (as.foldl f s) := by
  induction as generalizing s with
  | nil => exact .refl s
  | cons a as ih => exact (each s a).trans (ih _)

/-! ### The operations on a slot -/

/-- A lease whose hold or notices alone change, with the same holders. -/
theorem quiet_of_lease {moved : Mid → Option NoticeKind} (h : s.Touches k (some l') noLoss moved t)
    (holds : s.lease k = some l) (none_moved : ∀ n, moved n = none) (descends : s.Descends k l l')
    (scrub : l'.hold.state = .scrub ↔ l.hold.state = .scrub)
    (holders : HoldShape l.hold → l'.hold.holders = l.hold.holders)
    (terms : s.TermLaw → HoldTerms l.hold → HoldTerms l'.hold) : s.Quiet t where
  scrub := h.inScrub holds (by simpa using scrub)
  steps := .single <| h.descent holds (fun _ e => Option.some.inj e ▸ descends)
    (fun shape n => by simp [noLoss, holdersCount, holders shape])
    (fun n moves => absurd (none_moved n) moves)
  terms law := law.of_touches h fun l₂ e => Option.some.inj e ▸ terms law (law.1 k l holds)

/-- A lease of which only notices change, those raised being for ATTACHED masters. -/
theorem quiet_of_notices {ns : NoticeSet} (h : s.Touches k (some { l with notices := ns }) noLoss noMove t)
    (holds : s.lease k = some l) (told : ∀ n : Mid, ns[n] ≠ none → l.notices[n] ≠ none ∨ s.attached n = true) :
    s.Quiet t :=
  quiet_of_lease h holds (fun _ => rfl) ⟨rfl, .inl rfl, id, fun _ => .inl, told⟩ Iff.rfl (fun _ => rfl) fun _ => id

/-- Those who hear of an event are ATTACHED (R33). -/
theorem told_of_raised {ns : NoticeSet} {x : NoticeKind} {ms : List Mid} {n : Mid}
    (some_told : (s.raised ns x ms)[n] ≠ none) : ns[n] ≠ none ∨ s.attached n = true := by
  rw [raised_get] at some_told
  split at some_told
  · rename_i h; exact .inr h.2
  · exact .inl some_told

theorem quiet_notifyAll (s : State) (k : SlotIx) (x : NoticeKind) (ms : List Mid) : s.Quiet (s.notifyAll k x ms) := by
  have told := touches_notifyAll s k x ms
  cases holds : s.lease k with
  | none =>
    have same : s.notifyAll k x ms = s := by
      clear told
      induction ms with
      | nil => rfl
      | cons m ms ih =>
        have : s.notify k x m = s := by simp only [notify, holds]; split <;> rfl
        rw [notifyAll_cons, this, ih]
    rw [same]; exact .refl s
  | some l =>
    rw [holds, Option.map_some] at told
    exact quiet_of_notices told holds fun n => told_of_raised

theorem quiet_notify (s : State) (k : SlotIx) (x : NoticeKind) (m : Mid) : s.Quiet (s.notify k x m) :=
  quiet_notifyAll s k x [m]

theorem quiet_notifyUser (s : State) (k : SlotIx) (x : NoticeKind) (h : Hold) : s.Quiet (s.notifyUser k x h) := by
  simp only [notifyUser]
  split
  · exact .refl s
  · exact quiet_notify ..

theorem quiet_dropNotice (s : State) (k : SlotIx) (m : Mid) : s.Quiet (s.dropNotice k m) := by
  have dropped := touches_dropNotice s k m
  cases holds : s.lease k with
  | none =>
    have same : s.dropNotice k m = s := by simp [dropNotice, holds]
    rw [same]; exact .refl s
  | some l =>
    rw [holds, Option.map_some] at dropped
    refine quiet_of_notices dropped holds fun n some_told => .inl ?_
    rw [notices_set_get] at some_told
    split at some_told
    · exact absurd rfl some_told
    · exact some_told

/-- Freeing a slot that is not in SCRUB. -/
theorem quiet_freeSlot (notScrub : ∀ l, s.lease k = some l → l.hold.state ≠ .scrub) : s.Quiet (s.freeSlot k) := by
  cases holds : s.lease k with
  | none => rw [freeSlot_of_none holds]; exact .refl s
  | some l =>
    have freed := touches_freeSlot holds
    exact .one
      (freed.descent holds (fun _ e => by cases e) (fun _ n => rfl) fun n => .inl)
      (freed.inScrub holds (by simpa using notScrub l holds))
      fun law => law.of_touches freed fun _ e => by cases e

/-- What tainting makes of a lease EXCLUSIVE in HELD or GRACE (R20). -/
theorem taint_of_owner {h : Hold} {o : Mid} (owner : h.owner? = some o) :
    (∃ g, h.taint = .tainted o g) ∧ h.mode = .exclusive ∧ h.state ≠ .scrub ∧ h.holders = [o] := by
  cases h <;> simp_all [Hold.owner?, Hold.taint, Hold.mode, Hold.state, Hold.holders]

/-- No master has a part in a TAINTED lease. -/
theorem not_involves_tainted {o n : Mid} {g : Tag} : ¬(Hold.tainted o g).Involves n := by
  simp [Hold.Involves, Hold.owner?, Hold.shares, Hold.sharers, Hold.chain]

theorem quiet_taintSlot (s : State) (k : SlotIx) : s.Quiet (s.taintSlot k) := by
  cases holds : s.lease k with
  | none =>
    have same : s.taintSlot k = s := by simp [taintSlot, holds]
    rw [same]; exact .refl s
  | some l =>
    cases owner : l.hold.owner? with
    | none =>
      have same : s.taintSlot k = s := by simp [taintSlot, holds, owner]
      rw [same]; exact .refl s
    | some o =>
      have tainted := touches_taintSlot holds owner
      obtain ⟨⟨g, taint⟩, mode, state, holders⟩ := taint_of_owner owner
      refine .one (tainted.descent holds ?_ ?_ fun n moves => absurd rfl moves) (tainted.inScrub holds ?_)
        fun law => law.of_touches tainted ?_
      · rintro l' ⟨⟩
        exact ⟨rfl, .inl (by rw [taint, mode]; rfl), fun _ => by rw [taint]; trivial,
          fun n part => absurd part (by rw [taint]; exact not_involves_tainted), fun _ => .inl⟩
      · intro _ n
        rw [holders]
        simp [holdersCount, taint, Hold.holders, List.count_cons, eq_comm (a := n)]
      · simp only [Option.some.injEq, exists_eq_left', taint]
        exact iff_of_false (by simp [Hold.state]) state
      · rintro l' ⟨⟩
        rw [taint]; trivial

/-- A sharer of a hold is on its list. -/
theorem shares_iff {h : Hold} {m : Mid} : h.shares m = true ↔ m ∈ h.sharers.map Sharer.master := by
  simp [Hold.shares]

/-- A hold with a sharer is a sharer list. -/
theorem shared_of_shares {h : Hold} {m : Mid} (shares : h.shares m = true) : ∃ es, h = .shared es := by
  cases h <;> simp_all [Hold.shares, Hold.sharers]

/-- How often a master is on a list without `m`. -/
theorem count_others {es : List Sharer} {m : Mid} (distinct : (es.map Sharer.master).Nodup)
    (mem : m ∈ es.map Sharer.master) (n : Mid) :
    (if n = m then 1 else 0) + ((es.filter fun e => e.master ≠ m).map Sharer.master).count n =
      (es.map Sharer.master).count n := by
  have filtered : (es.filter fun e => e.master ≠ m).map Sharer.master = (es.map Sharer.master).filter (· ≠ m) := by
    rw [List.filter_map]; rfl
  rw [filtered]
  by_cases e : n = m
  · subst e
    have zero : ((es.map Sharer.master).filter (· ≠ n)).count n = 0 := by
      rw [List.count_eq_zero]; simp
    rw [if_pos rfl, zero, List.count_eq_one_of_mem distinct mem]
  · rw [if_neg e, Nat.zero_add, List.count_filter]
    simpa using e

theorem quiet_endMembership (s : State) (k : SlotIx) (m : Mid) : s.Quiet (s.endMembership k m) := by
  cases holds : s.lease k with
  | none => rw [endMembership_of_not (by simp [holds])]; exact .refl s
  | some l =>
    by_cases shares : l.hold.shares m = true
    · obtain ⟨es, hold⟩ := shared_of_shares shares
      have mem : m ∈ es.map Sharer.master := by rw [shares_iff, hold] at shares; exact shares
      have others : l.hold.others m = es.filter fun e => e.master ≠ m := by rw [hold]; rfl
      by_cases last : l.hold.others m = []
      · have ends := touches_endMembership_last holds shares last
        refine .one (ends.descent holds (fun _ e => by cases e) ?_ fun n => .inl)
          (ends.inScrub holds (by simp [hold, Hold.state])) fun law => law.of_touches ends fun _ e => by cases e
        intro shape n
        rw [hold] at shape ⊢
        have count := count_others shape.2.2 mem n
        rw [← others, last] at count
        simpa [holdersCount, Hold.holders] using count
      · have ends := touches_endMembership_other holds shares last
        refine .one (ends.descent holds ?_ ?_ fun n moves => absurd rfl moves)
          (ends.inScrub holds (by simp [hold, Hold.state])) fun law => law.of_touches ends ?_
        · rintro l' ⟨⟩
          refine ⟨rfl, .inr (.inl rfl), fun shape => ?_, fun n part => .inl ?_, fun _ => .inl⟩
          · rw [hold] at shape
            obtain ⟨-, short, distinct⟩ := shape
            rw [others] at last ⊢
            exact ⟨last, (List.length_filter_le _ _).trans short, distinct.sublist (List.filter_sublist.map _)⟩
          · have share : ((Hold.shared (l.hold.others m)).shares n) = true := by
              rcases part with owner | share | frame
              · cases owner
              · exact share
              · cases frame
            refine .inr (.inl ?_)
            rw [shares_iff] at share ⊢
            exact (List.filter_sublist.map _).subset share
        · intro shape n
          rw [hold] at shape
          have count := count_others shape.2.2 mem n
          rw [← others] at count
          simpa [holdersCount, Hold.holders, hold] using count
        · rintro l' ⟨⟩ e he
          have terms := law.1 k l holds
          rw [hold] at terms
          rw [others] at he
          exact terms e (List.mem_filter.1 he).1
    · rw [endMembership_of_not (by simpa [holds] using shares)]; exact .refl s

theorem quiet_endGrace (s : State) (k : SlotIx) : s.Quiet (s.endGrace k) := by
  simp only [endGrace]
  split
  · exact .refl s
  · split
    · exact .refl s
    · exact (quiet_taintSlot ..).trans (quiet_notifyAll ..)

theorem quiet_endSharerTerm (s : State) (k : SlotIx) (m : Mid) : s.Quiet (s.endSharerTerm k m) :=
  (quiet_notify ..).trans (quiet_endMembership ..)

/-- Giving a slot another hold of the same kind: the same owner and delegates, or the same sharers. -/
theorem quiet_setHold {h : Hold} (holds : s.lease k = some l) (mode : h.mode = l.hold.mode)
    (shape : HoldShape l.hold → HoldShape h) (part : ∀ n, h.Involves n → l.hold.Involves n ∨ s.attached n = true)
    (scrub : h.state = .scrub ↔ l.hold.state = .scrub) (holders : h.holders = l.hold.holders)
    (terms : s.TermLaw → HoldTerms l.hold → HoldTerms h) : s.Quiet (s.setLease k { l with hold := h }) :=
  quiet_of_lease (touches_setLease ..) holds (fun _ => rfl) ⟨rfl, .inl mode, shape, part, fun _ => .inl⟩ scrub
    (fun _ => holders) terms

theorem quiet_endTerm (s : State) (k : SlotIx) : s.Quiet (s.endTerm k) := by
  simp only [endTerm]
  split
  · exact .refl s
  · rename_i l holds
    split
    · rename_i o g n c hold
      split
      · exact quiet_endGrace ..
      · rename_i grace
        refine Quiet.trans (quiet_setHold holds (by rw [hold]; rfl) (by rw [hold]; exact id)
          (by rw [hold]; exact fun _ => .inl) (by simp [hold, Hold.state]) (by rw [hold]; rfl) fun _ terms => ?_)
          (quiet_notify ..)
        rw [hold] at terms
        exact ⟨rfl, terms.1.trans terms.2, Nat.one_le_iff_ne_zero.2 grace⟩
    · exact .refl s

/-! ### The tick of a slot -/

/-- The sharers of a lease that a tick leaves have their terms still running. -/
theorem termRuns_tick {level : Nat} {e : Sharer} (runs : TermRuns e.term) (more : 1 < e.term.remaining) :
    TermRuns (e.tick level).term := by
  obtain ⟨-, most⟩ := runs
  simp only [Sharer.tick]
  split <;> simp only [TermRuns, Term.lower] <;> omega

/-- Ending sharer terms leaves in the slot no lease, or the SHARED one with some of the others. -/
theorem lease_endSharerTerms {es : List Sharer} (ms : List Mid) (holds : s.lease k = some l) (hold : l.hold = .shared es)
    (j : SlotIx) (l' : Lease) (after : (ms.foldl (fun s m => s.endSharerTerm k m) s).lease j = some l') :
    (j ≠ k ∧ s.lease j = some l') ∨ ∃ es', l'.hold = .shared es' ∧ ∀ e ∈ es', e ∈ es ∧ e.master ∉ ms := by
  induction ms generalizing s l es with
  | nil =>
    by_cases here : j = k
    · subst here
      obtain rfl : l = l' := by rw [List.foldl_nil, holds] at after; exact Option.some.inj after
      exact .inr ⟨es, hold, fun e he => ⟨he, by simp⟩⟩
    · exact .inl ⟨here, after⟩
  | cons m ms ih =>
    have told := touches_notify s k .expired m
    rw [holds, Option.map_some] at told
    have ends := touches_endMembership (s.notify k .expired m) k m
    rw [told.lease_same] at ends
    have others_same : ∀ i, k ≠ i → (s.endSharerTerm k m).lease i = s.lease i := fun i ne => by
      rw [endSharerTerm, ends.lease_ne ne, told.lease_ne ne]
    have none_freed : (s.endSharerTerm k m).lease k = none → ∀ ms' : List Mid,
        ms'.foldl (fun s m => s.endSharerTerm k m) (s.endSharerTerm k m) = s.endSharerTerm k m := by
      intro free ms'
      induction ms' with
      | nil => rfl
      | cons x xs rest =>
        have same : (s.endSharerTerm k m).endSharerTerm k x = s.endSharerTerm k m := by
          have quiet : (s.endSharerTerm k m).notify k .expired x = s.endSharerTerm k m := by
            simp only [notify, free]; split <;> rfl
          rw [endSharerTerm, quiet, endMembership_of_not (by simp [free])]
        rw [List.foldl_cons, same, rest]
    have here : (s.endSharerTerm k m).lease k =
        (leaveEffect m (some { l with notices := s.raised l.notices .expired [m] })).after := ends.lease_same
    by_cases shares : l.hold.shares m = true
    · by_cases last : l.hold.others m = []
      · rw [leaveEffect, if_pos shares, if_pos last] at here
        rw [List.foldl_cons, none_freed here] at after
        by_cases eq : j = k
        · subst eq; rw [here] at after; cases after
        · exact .inl ⟨eq, by rw [← others_same j (Ne.symm eq)]; exact after⟩
      · rw [leaveEffect, if_pos shares, if_neg last] at here
        rcases ih here rfl after with ⟨ne, same⟩ | ⟨es', hold', mem⟩
        · exact .inl ⟨ne, by rw [← others_same j (Ne.symm ne)]; exact same⟩
        · refine .inr ⟨es', hold', fun e he => ?_⟩
          obtain ⟨other, rest⟩ := mem e he
          have kept : e ∈ es.filter fun e => e.master ≠ m := by
            have : l.hold.others m = es.filter fun e => e.master ≠ m := by rw [hold]; rfl
            rwa [← this]
          obtain ⟨was, ne⟩ := List.mem_filter.1 kept
          exact ⟨was, by simp only [List.mem_cons, not_or]; exact ⟨by simpa using ne, rest⟩⟩
    · rw [leaveEffect, if_neg shares] at here
      rcases ih here hold after with ⟨ne, same⟩ | ⟨es', hold', mem⟩
      · exact .inl ⟨ne, by rw [← others_same j (Ne.symm ne)]; exact same⟩
      · refine .inr ⟨es', hold', fun e he => ⟨(mem e he).1, ?_⟩⟩
        simp only [List.mem_cons, not_or]
        refine ⟨fun eq => shares ?_, (mem e he).2⟩
        rw [shares_iff, hold]
        exact List.mem_map.2 ⟨e, (mem e he).1, eq⟩

/-- A tick of a SHARED lease (R78, R79): the terms of the sharers that stay still run. -/
theorem quiet_tickShared {es : List Sharer} (holds : s.lease k = some l) (hold : l.hold = .shared es) :
    s.Quiet (s.tickShared k es) := by
  have warned := touches_warnSharers (es := es) holds
  have masters : (es.map (Sharer.tick s.time.warnLevel)).map Sharer.master = es.map Sharer.master := by
    rw [List.map_map]; rfl
  constructor
  · have lowered : Relation.ReflTransGen Descent s
        ((s.setSharers k (es.map (Sharer.tick s.time.warnLevel))).notifyAll k .warned
          (sharersWarned s.time.warnLevel es)) := by
      refine .single (warned.descent holds ?_ ?_ fun n moves => absurd rfl moves)
      · rintro l' ⟨⟩
        refine ⟨rfl, .inr (.inl rfl), fun shape => ?_, fun n part => .inl ?_, fun n => told_of_raised⟩
        · rw [hold] at shape
          obtain ⟨some_sharer, short, distinct⟩ := shape
          exact ⟨by simpa using some_sharer, by simpa using short, by rw [masters]; exact distinct⟩
        · have share : ((s.sharersTicked l es).hold.shares n) = true := by
            rcases part with owner | share | frame
            · cases owner
            · exact share
            · cases frame
          refine .inr (.inl ?_)
          rw [shares_iff] at share ⊢
          rw [hold]
          exact masters ▸ share
      · intro _ n
        simp [noLoss, holdersCount, Hold.holders, hold, sharersTicked, Function.comp_def]
    refine lowered.trans ?_
    exact (Quiet.foldl (fun s m => quiet_endSharerTerm s k m) _ _).steps
  · intro j
    exact ((Quiet.foldl (fun s m => quiet_endSharerTerm s k m) _ _).scrub j).trans
      (warned.inScrub holds (by simp [hold, Hold.state, sharersTicked]) j)
  · intro law
    obtain ⟨leases, queue, pools⟩ := law
    have frame := (Quiet.foldl (fun s m => quiet_endSharerTerm s k m) (sharersOut es)
      ((s.setSharers k (es.map (Sharer.tick s.time.warnLevel))).notifyAll k .warned
        (sharersWarned s.time.warnLevel es))).steps
    have same : ∀ {a b : State}, Relation.ReflTransGen Descent a b → b.queue = a.queue ∧ b.pools = a.pools := by
      intro a b run
      induction run with
      | refl => exact ⟨rfl, rfl⟩
      | tail _ last ih => rw [last.frame]; exact ih
    have kept := same frame
    refine ⟨fun j l' after => ?_, ?_, fun p => ?_⟩
    · rcases lease_endSharerTerms (sharersOut es) warned.lease_same rfl j l' after with ⟨ne, was⟩ | ⟨es', hold', mem⟩
      · rw [warned.lease_ne (Ne.symm ne)] at was
        exact leases j l' was
      · rw [hold']
        intro e he
        obtain ⟨ticked, stays⟩ := mem e he
        obtain ⟨e₀, he₀, rfl⟩ := List.mem_map.1 ticked
        have runs := leases k l holds
        rw [hold] at runs
        refine termRuns_tick (runs e₀ he₀) ?_
        by_contra ended
        exact stays (List.mem_map.2 ⟨e₀, List.mem_filter.2 ⟨he₀, by simpa using ended⟩, rfl⟩)
    · have : (s.tickShared k es).queue = s.queue := by rw [tickShared]; exact kept.1.trans (by rw [warned.frame])
      rw [this]; exact queue
    · have : (s.tickShared k es).pools = s.pools := by rw [tickShared]; exact kept.2.trans (by rw [warned.frame])
      rw [pool, this]; exact pools p

theorem quiet_tickSlot (s : State) (k : SlotIx) : s.Quiet (s.tickSlot k) := by
  simp only [tickSlot]
  split
  · exact .refl s
  · rename_i l holds
    split
    · rename_i o g n c hold
      have lowered : 1 < n.remaining → ∀ w : Bool,
          s.Quiet (s.setLease k { l with hold := .held o g { n.lower with warned := w } c }) := by
        intro more w
        refine quiet_setHold holds (by rw [hold]; rfl) (by rw [hold]; exact id) (by rw [hold]; exact fun _ => .inl)
          (by simp [hold, Hold.state]) (by rw [hold]; rfl) fun _ terms => ?_
        rw [hold] at terms
        obtain ⟨-, most⟩ := terms
        simp only [HoldTerms, TermRuns, Term.lower]
        omega
      split
      · exact quiet_endTerm ..
      · rename_i more
        split
        · exact (lowered (by omega) true).trans (quiet_notify ..)
        · exact lowered (by omega) n.lower.warned
    · rename_i o g n c left hold
      split
      · exact quiet_endGrace ..
      · rename_i more
        refine quiet_setHold holds (by rw [hold]; rfl) (by rw [hold]; exact id) (by rw [hold]; exact fun _ => .inl)
          (by simp [hold, Hold.state]) (by rw [hold]; rfl) fun _ terms => ?_
        rw [hold] at terms
        obtain ⟨ended, granted, -⟩ := terms
        simp only [HoldTerms]
        exact ⟨ended, granted, by omega⟩
    · rename_i es hold
      exact quiet_tickShared holds hold
    · exact .refl s
    · exact .refl s

/-! ### The operations of detachment and fences -/

theorem quiet_detachSlot (m : Mid) (s : State) (k : SlotIx) : s.Quiet (detachSlot m s k) := by
  simp only [detachSlot]
  split
  · rename_i owns
    refine quiet_freeSlot fun l holds => ?_
    simp only [holds, Option.any_some, Lease.ownedBy, decide_eq_true_eq] at owns
    exact (taint_of_owner owns).2.2.1
  · exact quiet_endMembership ..

theorem quiet_fenceOwned (m : Mid) (s : State) (k : SlotIx) : s.Quiet (fenceOwned m s k) := by
  simp only [fenceOwned]
  split
  · exact .refl s
  · split
    · exact ((quiet_taintSlot ..).trans (quiet_notifyAll ..)).trans (quiet_notify ..)
    · exact .refl s

/-- A hold with a shorter chain. -/
theorem quiet_setChain {c : List Mid} (holds : s.lease k = some l) (sub : c.Sublist l.hold.chain) :
    s.Quiet (s.setLease k { l with hold := l.hold.withChain c }) := by
  cases hold : l.hold with
  | held o g n c₀ =>
    rw [hold] at sub
    refine quiet_setHold holds (by rw [hold]; rfl) ?_ ?_ (by simp [hold, Hold.state, Hold.withChain]) (by rw [hold]; rfl)
      fun _ terms => by rw [hold] at terms; exact terms
    · rw [hold]
      rintro ⟨short, distinct⟩
      exact ⟨sub.length_le.trans short, distinct.sublist (sub.cons_cons o)⟩
    · rw [hold]
      rintro n (owner | share | frame)
      · exact .inl (.inl owner)
      · exact .inl (.inr (.inl share))
      · exact .inl (.inr (.inr (sub.subset frame)))
  | grace o g n c₀ left =>
    rw [hold] at sub
    refine quiet_setHold holds (by rw [hold]; rfl) ?_ ?_ (by simp [hold, Hold.state, Hold.withChain]) (by rw [hold]; rfl)
      fun _ terms => by rw [hold] at terms; exact terms
    · rw [hold]
      rintro ⟨short, distinct⟩
      exact ⟨sub.length_le.trans short, distinct.sublist (sub.cons_cons o)⟩
    · rw [hold]
      rintro n (owner | share | frame)
      · exact .inl (.inl owner)
      · exact .inl (.inr (.inl share))
      · exact .inl (.inr (.inr (sub.subset frame)))
  | tainted o g =>
    exact quiet_setHold holds (by rw [hold]; rfl) (by rw [hold]; exact id) (by rw [hold]; exact fun _ => .inl)
      (by rw [hold]; rfl) (by rw [hold]; rfl) (by rw [hold]; exact fun _ => id)
  | scrub o g =>
    exact quiet_setHold holds (by rw [hold]; rfl) (by rw [hold]; exact id) (by rw [hold]; exact fun _ => .inl)
      (by rw [hold]; rfl) (by rw [hold]; rfl) (by rw [hold]; exact fun _ => id)
  | shared es =>
    exact quiet_setHold holds (by rw [hold]; rfl) (by rw [hold]; exact id) (by rw [hold]; exact fun _ => .inl)
      (by rw [hold]; rfl) (by rw [hold]; rfl) (by rw [hold]; exact fun _ => id)

theorem quiet_fenceChain (m : Mid) (s : State) (k : SlotIx) : s.Quiet (fenceChain m s k) := by
  simp only [fenceChain]
  split
  · exact .refl s
  · rename_i l holds
    split
    · refine Quiet.trans ?_ (quiet_notifyAll ..)
      exact (quiet_setChain holds (List.takeWhile_sublist _)).trans (quiet_notifyUser ..)
    · exact .refl s

/-- Every lease changes by `f`, which keeps who has part in it. -/
theorem quiet_mapLeases {f : Lease → Lease} {g : Slot → Slot} (maps : ∀ x, g x = { x with lease := x.lease.map f })
    (descends : ∀ k l, s.lease k = some l → s.Descends k l (f l))
    (scrub : ∀ l, (f l).hold.state = .scrub ↔ l.hold.state = .scrub) (holders : ∀ l, (f l).hold.holders = l.hold.holders)
    (terms : ∀ l, HoldTerms l.hold → HoldTerms (f l).hold) : s.Quiet (s.mapSlots g) := by
  have lease : ∀ k, (s.mapSlots g).lease k = (s.lease k).map f := fun k => by rw [lease_mapSlots, maps]; rfl
  have leases : ∀ k l', (s.mapSlots g).lease k = some l' → ∃ l, s.lease k = some l ∧ l' = f l := by
    intro k l' after
    rw [lease, Option.map_eq_some_iff] at after
    obtain ⟨l, holds, rfl⟩ := after
    exact ⟨l, holds, rfl⟩
  have count : ∀ n, (s.mapSlots g).heldNow n = s.heldNow n := by
    intro n
    refine congrArg List.sum (List.map_congr_left fun k _ => ?_)
    rw [lease]
    cases s.lease k with
    | none => rfl
    | some l => exact congrArg (List.count n) (holders l)
  refine .one ⟨?_, fun k => by simp [maps], fun k l' after => ?_, fun n => ?_, fun n => ?_,
    fun _ n => ?_⟩ (fun k => ?_) fun law => ?_
  · simp [mapSlots]
  · obtain ⟨l, holds, rfl⟩ := leases k l' after
    exact ⟨l, holds, descends k l holds⟩
  · rw [master_mapSlots]
  · rw [master_mapSlots]; exact .inl
  · rw [count, master_mapSlots]; exact ⟨le_rfl, by omega⟩
  · simp only [InScrub, lease, Option.map_eq_some_iff]
    constructor
    · rintro ⟨_, ⟨l, holds, rfl⟩, state⟩; exact ⟨l, holds, (scrub l).1 state⟩
    · rintro ⟨l, holds, state⟩; exact ⟨_, ⟨l, holds, rfl⟩, (scrub l).2 state⟩
  · obtain ⟨counts, queue, pools⟩ := law
    refine ⟨fun k l' after => ?_, by rw [mapSlots_queue]; exact queue, fun p => by rw [pool_mapSlots]; exact pools p⟩
    obtain ⟨l, holds, rfl⟩ := leases k l' after
    exact terms l (counts k l holds)

/-- A master's notices leave every set (R131, R137). -/
theorem quiet_withoutNotices (s : State) (m : Mid) : s.Quiet (s.mapSlots (slotWithoutNotice m)) := by
  refine quiet_mapLeases (fun _ => rfl) (fun k l holds => ⟨rfl, .inl rfl, id, fun _ => .inl, fun n some_told => .inl ?_⟩)
    (fun _ => Iff.rfl) (fun _ => rfl) fun _ => id
  rw [notices_set_get] at some_told
  split at some_told
  · exact absurd rfl some_told
  · exact some_told

/-- Setting the warned flags of a hold changes no master's part in it (R72). -/
theorem setWarned_keeps (h : Hold) :
    h.setWarned.mode = h.mode ∧ h.setWarned.state = h.state ∧ h.setWarned.holders = h.holders ∧
      (HoldShape h → HoldShape h.setWarned) ∧ (∀ n, h.setWarned.Involves n → h.Involves n) ∧
      (HoldTerms h → HoldTerms h.setWarned) := by
  cases h with
  | shared es =>
    have masters : (es.map fun e => ({ e with term := { e.term with warned := true } } : Sharer)).map Sharer.master =
        es.map Sharer.master := by rw [List.map_map]; rfl
    refine ⟨rfl, rfl, masters, ?_, ?_, ?_⟩
    · rintro ⟨some_sharer, few, distinct⟩
      exact ⟨by simpa using some_sharer, by simpa using few, by rw [masters]; exact distinct⟩
    · rintro n (owner | share | frame)
      · cases owner
      · rw [shares_iff] at share
        exact .inr (.inl (shares_iff.2 (masters ▸ share)))
      · cases frame
    · intro terms e mem
      obtain ⟨e', mem', rfl⟩ := List.mem_map.1 mem
      exact terms e' mem'
  | held o g n c => exact ⟨rfl, rfl, rfl, id, fun _ => id, id⟩
  | grace o g n c left => exact ⟨rfl, rfl, rfl, id, fun _ => id, id⟩
  | tainted o g => exact ⟨rfl, rfl, rfl, id, fun _ => id, id⟩
  | scrub o g => exact ⟨rfl, rfl, rfl, id, fun _ => id, id⟩

/-- Every running warned flag is set (R72). -/
theorem quiet_setWarned (s : State) : s.Quiet (s.mapSlots slotSetWarned) := by
  refine quiet_mapLeases (fun _ => rfl) (fun k l holds => ?_) (fun l => ?_) (fun l => ?_) fun l => ?_
  · obtain ⟨mode, -, -, shape, part, -⟩ := setWarned_keeps l.hold
    exact ⟨rfl, .inl mode, shape, fun n h => .inl (part n h), fun _ => .inl⟩
  · rw [show l.hold.setWarned.state = l.hold.state from (setWarned_keeps l.hold).2.1]
  · exact (setWarned_keeps l.hold).2.2.1
  · exact (setWarned_keeps l.hold).2.2.2.2.2

end State

end Sys2Proof.Machine
end

section
/-! PROOF. DETACH and the fence scan by scan (R131, R137, R138): what each leaves before its grant pass, and that the master
has nothing in the lease table then. -/

namespace Sys2Proof.Machine.State

variable {s t u : State} {k : SlotIx} {m v : Mid}

/-- No lease gives `m` a part or keeps a notice for it, and its orphan field is empty (R126). -/
structure ClearOf (s : State) (m : Mid) : Prop where
  part : ∀ k l, s.lease k = some l → ¬l.hold.Involves m
  notice : ∀ k l, s.lease k = some l → l.notices[m] = none
  orphan : (s.master m).orphan = none

/-- `m`'s entries leave the queue, its counts are 0 and its state is as given (R131, R137). -/
def strip (s : State) (m : Mid) (st : MasterState) : State := (s.purgeEntries m).emptyMaster m st

theorem strip_frame (s : State) (m : Mid) (st : MasterState) :
    s.strip m st = { s with queue := (s.strip m st).queue, masters := (s.strip m st).masters } := rfl

@[simp] theorem lease_strip (s : State) (m : Mid) (st : MasterState) (k : SlotIx) : (s.strip m st).lease k = s.lease k := rfl

@[simp] theorem queue_strip (s : State) (m : Mid) (st : MasterState) :
    (s.strip m st).queue = s.queue.filter fun e => e.claim.master ≠ m := rfl

theorem master_strip (s : State) (m : Mid) (st : MasterState) (n : Mid) :
    (s.strip m st).master n =
      if n = m then { s.master m with state := st, held := 0, waiting := 0 } else s.master n := by
  simp only [strip, emptyMaster, purgeEntries, master_setMaster, master_setQueue, eq_comm (a := n)]

/-- Once clear of the lease table, a master stripped of its claims has nothing. -/
theorem ClearOf.holdsNothing (h : s.ClearOf m) (st : MasterState) : (s.strip m st).HoldsNothing m := by
  refine ⟨fun k l holds => ?_, fun e he => ?_, ?_⟩
  · have part := h.part k l holds
    simp only [Hold.Involves, not_or] at part
    exact ⟨part.1, by simpa using part.2.1, part.2.2, h.notice k l holds⟩
  · rw [queue_strip] at he
    simpa using (List.mem_filter.1 he).2
  · rw [master_strip, if_pos rfl]; exact h.orphan

/-! ### The notices dropped first -/

/-- A record written over a record. -/
theorem setMaster_setMaster (s : State) (m : Mid) (x y : Master) : (s.setMaster m x).setMaster m y = s.setMaster m y := by
  simp [setMaster, Vector.set_set]

/-- A record written where it stands. -/
theorem setMaster_self (s : State) (m : Mid) : s.setMaster m (s.master m) = s := by
  simp [setMaster, master]

/-- `m`'s notices are removed everywhere, and its record becomes `x`. -/
def silence (s : State) (m : Mid) (x : Master) : State := (s.mapSlots (slotWithoutNotice m)).setMaster m x

theorem dropAllNotices_eq (s : State) (m : Mid) : s.dropAllNotices m = s.silence m { s.master m with orphan := none } := by
  simp [dropAllNotices, silence]

theorem silence_frame (s : State) (m : Mid) (x : Master) :
    s.silence m x = { s with slots := (s.silence m x).slots, masters := (s.silence m x).masters } := by
  simp [silence, mapSlots, setMaster]

theorem lease_silence (s : State) (m : Mid) (x : Master) (k : SlotIx) :
    (s.silence m x).lease k = (s.lease k).map fun l => { l with notices := l.notices.set m none } := by
  simp only [silence, lease_setMaster, lease_mapSlots, slotWithoutNotice]
  rfl

@[simp] theorem gen_silence (s : State) (m : Mid) (x : Master) (k : SlotIx) :
    ((s.silence m x).slot k).gen = (s.slot k).gen := by
  simp [silence, slotWithoutNotice]

theorem master_silence (s : State) (m : Mid) (x : Master) (n : Mid) :
    (s.silence m x).master n = if n = m then x else s.master n := by
  simp [silence, eq_comm (a := n)]

/-- What a lease looks like once `m`'s notices are gone. -/
theorem lease_silence_inv {x : Master} {l' : Lease} (h : (s.silence m x).lease k = some l') :
    ∃ l, s.lease k = some l ∧ l' = { l with notices := l.notices.set m none } := by
  rw [lease_silence, Option.map_eq_some_iff] at h
  obtain ⟨l, holds, rfl⟩ := h
  exact ⟨l, holds, rfl⟩

theorem notice_silence {x : Master} {l' : Lease} (h : (s.silence m x).lease k = some l') : l'.notices[m] = none := by
  obtain ⟨l, -, rfl⟩ := lease_silence_inv h
  rw [notices_set_get, if_pos rfl]

/-! ### DETACH (R131) -/

/-- The lease table of a DETACH of `m`. -/
def detachTable (s : State) (m : Mid) : State := allSlots.foldl (detachSlot m) (s.dropAllNotices m)

/-- What an accepted DETACH leaves before its grant pass. -/
def detachClean (s : State) (m : Mid) : State :=
  if s.isSupervisor m then ((s.detachTable m).dropFinished).strip m .detached else (s.detachTable m).strip m .detached

theorem detach_eq (s : State) (m : Mid) : s.detach m = (s.detachClean m).grantPass := by
  simp only [detach, detachClean, detachTable]
  generalize allSlots.foldl (detachSlot m) (s.dropAllNotices m) = t
  split <;> rfl

theorem scans_detachTable (s : State) (m : Mid) :
    (s.dropAllNotices m).Scans allSlots (fun k => detachEffect m ((s.dropAllNotices m).lease k)) (s.detachTable m) :=
  scans_foldl allSlots nodup_allSlots _ fun t k _ _ same => by
    have : t.lease k = (s.dropAllNotices m).lease k := congrArg Slot.lease same
    rw [← this]
    exact touches_detachSlot m t k

/-- What an ended membership leaves of a lease. -/
theorem leaveEffect_after {l l' : Lease} (h : (leaveEffect m (some l)).after = some l') :
    l'.hold.shares m = false ∧ l'.range = l.range ∧ l'.notices = l.notices ∧
      (l'.hold = l.hold ∨ ∃ es, l'.hold = .shared es) := by
  rw [leaveEffect] at h
  split at h
  · split at h
    · cases h
    · obtain rfl := Option.some.inj h
      refine ⟨?_, rfl, rfl, .inr ⟨_, rfl⟩⟩
      simp [Hold.shares, Hold.sharers, Hold.others]
  · rename_i shares
    obtain rfl := Option.some.inj h
    exact ⟨by simpa using shares, rfl, rfl, .inl rfl⟩

/-- A sharer list has neither owner nor chain. -/
theorem shared_no_owner {h : Hold} (shared : ∃ es, h = .shared es) : h.owner? = none ∧ h.chain = [] := by
  obtain ⟨es, rfl⟩ := shared; exact ⟨rfl, rfl⟩

/-- A scan of all slots in which nothing moves for `n` leaves its orphan field. -/
theorem Scans.orphan_of_none {effect : SlotIx → SlotEffect} {n : Mid} (h : s.Scans allSlots effect u)
    (none_moved : ∀ k, (effect k).moved n = none) : (u.master n).orphan = (s.master n).orphan := by
  rw [h.master]
  exact orphanAlong_of_none (fun k _ => none_moved k) _

/-- No notice moves for a master that the slot keeps none for. -/
theorem leaveEffect_moved {l : Option Lease} {n : Mid} (none_kept : ∀ x, l = some x → x.notices[n] = none) :
    (leaveEffect m l).moved n = none := by
  cases l with
  | none => rfl
  | some l =>
    rw [leaveEffect]
    split
    · split
      · exact none_kept l rfl
      · rfl
    · rfl

/-- Where `m` has lent nothing and stands in no chain, a DETACH leaves it nothing in the lease table. -/
theorem clearOf_detachTable (unlent : ∀ k l, s.lease k = some l → m ∉ l.hold.chain) : (s.detachTable m).ClearOf m := by
  have scan := scans_detachTable s m
  rw [dropAllNotices_eq] at scan
  have after : ∀ k l', (s.detachTable m).lease k = some l' → ∃ l, s.lease k = some l ∧
      (detachEffect m (some { l with notices := l.notices.set m none })).after = some l' := by
    intro k l' holds'
    rw [scan.lease_all] at holds'
    cases holds : (s.silence m { s.master m with orphan := none }).lease k with
    | none => rw [holds] at holds'; cases holds'
    | some l₀ =>
      obtain ⟨l, was, rfl⟩ := lease_silence_inv holds
      rw [holds] at holds'
      exact ⟨l, was, holds'⟩
  refine ⟨fun k l' holds' => ?_, fun k l' holds' => ?_, ?_⟩
  · obtain ⟨l, was, effect⟩ := after k l' holds'
    rw [detachEffect] at effect
    split at effect
    · cases effect
    · rename_i owns
      obtain ⟨shares, -, -, same | shared⟩ := leaveEffect_after effect
      · rintro (owner | share | frame)
        · exact owns (by rw [← same]; exact owner)
        · rw [shares] at share; cases share
        · exact unlent k l was (by rw [same] at frame; exact frame)
      · obtain ⟨owner', chain'⟩ := shared_no_owner shared
        rintro (owner | share | frame)
        · rw [owner'] at owner; cases owner
        · rw [shares] at share; cases share
        · rw [chain'] at frame; cases frame
  · obtain ⟨l, was, effect⟩ := after k l' holds'
    have gone : (l.notices.set m none)[m] = none := by rw [notices_set_get, if_pos rfl]
    rw [detachEffect] at effect
    split at effect
    · cases effect
    · rw [(leaveEffect_after effect).2.2.1]; exact gone
  · refine (scan.orphan_of_none fun k => ?_).trans (by rw [master_silence, if_pos rfl])
    cases holds : (s.silence m { s.master m with orphan := none }).lease k with
    | none => rfl
    | some l =>
      rw [detachEffect]
      split
      · exact notice_silence holds
      · refine leaveEffect_moved fun x hx => ?_
        obtain rfl := Option.some.inj hx
        exact notice_silence holds

/-! ### The fence (R137, R138) -/

/-- The state in which a fence of `v` begins: `v` is FENCED and has no notice. -/
def fenceStart (s : State) (v : Mid) : State := s.silence v { s.master v with orphan := none, state := .fenced }

/-- The fence's first scan: `v`'s own leases are tainted. -/
def fenceTaints (s : State) (v : Mid) : State := allSlots.foldl (fenceOwned v) (s.fenceStart v)

/-- The second: `v`'s memberships end. -/
def fenceLeaves (s : State) (v : Mid) : State := allSlots.foldl (fun t k => t.endMembership k v) (s.fenceTaints v)

/-- The third: the chains in which `v` stands are cut. -/
def fenceCuts (s : State) (v : Mid) : State := allSlots.foldl (fenceChain v) (s.fenceLeaves v)

/-- What a fence leaves before its grant pass. -/
def fenceClean (s : State) (v : Mid) : State := (s.fenceCuts v).strip v .fenced

theorem fenceMaster_eq (s : State) (v : Mid) : s.fenceMaster v = (s.fenceClean v).grantPass := by
  have start : (s.dropAllNotices v).setMaster v { (s.dropAllNotices v).master v with state := .fenced } =
      s.fenceStart v := by
    rw [dropAllNotices_eq, master_silence, if_pos rfl, silence, setMaster_setMaster]
    rfl
  simp only [fenceMaster, start]
  rfl

theorem scans_fenceTaints (s : State) (v : Mid) :
    (s.fenceStart v).Scans allSlots (fenceOwnedEffect v (s.fenceStart v)) (s.fenceTaints v) :=
  scans_foldl allSlots nodup_allSlots _ fun t k _ view same => by
    rw [← fenceOwnedEffect_congr view same]
    exact touches_fenceOwned v t k

theorem scans_fenceLeaves (s : State) (v : Mid) :
    (s.fenceTaints v).Scans allSlots (fun k => leaveEffect v ((s.fenceTaints v).lease k)) (s.fenceLeaves v) :=
  scans_foldl allSlots nodup_allSlots _ fun t k _ _ same => by
    have : t.lease k = (s.fenceTaints v).lease k := congrArg Slot.lease same
    rw [← this]
    exact touches_endMembership t k v

theorem scans_fenceCuts (s : State) (v : Mid) :
    (s.fenceLeaves v).Scans allSlots (fenceChainEffect v (s.fenceLeaves v)) (s.fenceCuts v) :=
  scans_foldl allSlots nodup_allSlots _ fun t k _ view same => by
    rw [← fenceChainEffect_congr view same]
    exact touches_fenceChain v t k

/-- From its start a fence hears nothing for the master it fences. -/
theorem attached_fenceStart (s : State) (v n : Mid) :
    (s.fenceStart v).attached n = (decide (n ≠ v) && s.attached n) := by
  simp only [attached, fenceStart, master_silence]
  by_cases e : n = v <;> simp [e]

/-- A notice raised in a fence is not for the master it fences. -/
theorem raised_fence {ns : NoticeSet} {x : NoticeKind} {ms : List Mid} (deaf : s.attached v = false)
    (none_kept : ns[v] = none) : (s.raised ns x ms)[v] = none := by
  rw [raised_get, if_neg (by simp [deaf]), none_kept]

/-- After the first scan `v` owns nothing, and no notice is kept for it. -/
theorem fenceTaints_clear {l : Lease} (holds : (s.fenceTaints v).lease k = some l) :
    l.hold.owner? ≠ some v ∧ l.notices[v] = none := by
  rw [(scans_fenceTaints s v).lease_all, fenceOwnedEffect] at holds
  have deaf : (s.fenceStart v).attached v = false := by simp [attached_fenceStart]
  split at holds
  · cases holds
  · rename_i l₀ holds₀
    have none_kept : l₀.notices[v] = none := notice_silence holds₀
    split at holds
    · rename_i owner
      obtain rfl := Option.some.inj holds
      obtain ⟨⟨g, taint⟩, -⟩ := taint_of_owner owner
      exact ⟨by rw [taint]; simp [Hold.owner?], raised_fence deaf (raised_fence deaf none_kept)⟩
    · rename_i owner
      obtain rfl := Option.some.inj holds
      exact ⟨owner, none_kept⟩

/-- After the second it shares nothing either. -/
theorem fenceLeaves_clear {l : Lease} (holds : (s.fenceLeaves v).lease k = some l) :
    l.hold.owner? ≠ some v ∧ l.notices[v] = none ∧ l.hold.shares v = false := by
  rw [(scans_fenceLeaves s v).lease_all] at holds
  cases holds₀ : (s.fenceTaints v).lease k with
  | none => rw [holds₀] at holds; cases holds
  | some l₀ =>
    rw [holds₀] at holds
    obtain ⟨owner, none_kept⟩ := fenceTaints_clear holds₀
    obtain ⟨shares, -, notices, same | shared⟩ := leaveEffect_after holds
    · exact ⟨by rw [same]; exact owner, by rw [notices]; exact none_kept, shares⟩
    · exact ⟨by rw [(shared_no_owner shared).1]; simp, by rw [notices]; exact none_kept, shares⟩

/-- What a hold with a chain keeps when the chain is replaced. -/
theorem withChain_of_frame {h : Hold} {c : List Mid} (frame : h.chain ≠ []) :
    (h.withChain c).owner? = h.owner? ∧ (h.withChain c).chain = c ∧ (h.withChain c).sharers = h.sharers := by
  cases h with
  | held o g n c₀ => exact ⟨rfl, rfl, rfl⟩
  | grace o g n c₀ left => exact ⟨rfl, rfl, rfl⟩
  | tainted o g => exact absurd rfl frame
  | scrub o g => exact absurd rfl frame
  | shared es => exact absurd rfl frame

/-- After the third the fenced master has nothing in the lease table. -/
theorem clearOf_fenceCuts (s : State) (v : Mid) : (s.fenceCuts v).ClearOf v := by
  have taints := scans_fenceTaints s v
  have leaves := scans_fenceLeaves s v
  have cuts := scans_fenceCuts s v
  have deaf : (s.fenceLeaves v).attached v = false := by
    rw [leaves.attached, taints.attached, attached_fenceStart]; simp
  have all : ∀ k l', (s.fenceCuts v).lease k = some l' → ¬l'.hold.Involves v ∧ l'.notices[v] = none := by
    intro k l' holds'
    rw [cuts.lease_all, fenceChainEffect] at holds'
    split at holds'
    · cases holds'
    · rename_i l holds
      obtain ⟨owner, none_kept, shares⟩ := fenceLeaves_clear holds
      split at holds'
      · rename_i frame
        obtain rfl := Option.some.inj holds'
        obtain ⟨owner', chain', sharers'⟩ :=
          withChain_of_frame (c := framesBefore v l.hold.chain) (List.ne_nil_of_mem frame)
        refine ⟨?_, raised_fence deaf (raised_fence deaf none_kept)⟩
        rintro (own | share | inside)
        · exact owner (owner' ▸ own)
        · rw [Hold.shares, sharers'] at share
          rw [Hold.shares, share] at shares
          cases shares
        · rw [chain', framesBefore] at inside
          simpa using List.mem_takeWhile_imp inside
      · rename_i frame
        obtain rfl := Option.some.inj holds'
        refine ⟨?_, none_kept⟩
        rintro (own | share | inside)
        · exact owner own
        · rw [shares] at share; cases share
        · exact frame inside
  refine ⟨fun k l holds => (all k l holds).1, fun k l holds => (all k l holds).2, ?_⟩
  have third : ((s.fenceCuts v).master v).orphan = ((s.fenceLeaves v).master v).orphan :=
    cuts.orphan_of_none fun k => by
      rw [fenceChainEffect]
      split
      · rfl
      · split <;> rfl
  have second : ((s.fenceLeaves v).master v).orphan = ((s.fenceTaints v).master v).orphan :=
    leaves.orphan_of_none fun k => leaveEffect_moved fun l holds => (fenceTaints_clear holds).2
  have first : ((s.fenceTaints v).master v).orphan = ((s.fenceStart v).master v).orphan :=
    taints.orphan_of_none fun k => by
      rw [fenceOwnedEffect]
      split
      · rfl
      · split <;> rfl
  rw [third, second, first, fenceStart, master_silence, if_pos rfl]

/-- The scans of a fence are changes of the lease table. -/
theorem quiet_fenceCuts (s : State) (v : Mid) : (s.fenceStart v).Quiet (s.fenceCuts v) :=
  ((Quiet.foldl (quiet_fenceOwned v) _ _).trans (Quiet.foldl (fun s k => quiet_endMembership s k v) _ _)).trans
    (Quiet.foldl (quiet_fenceChain v) _ _)

/-- So is the scan of a DETACH. -/
theorem quiet_detachTable (s : State) (m : Mid) : (s.dropAllNotices m).Quiet (s.detachTable m) :=
  Quiet.foldl (quiet_detachSlot m) _ _

end Sys2Proof.Machine.State
end

section
/-! PROOF. The scrub list (Section 9): the scrub law in terms of the handles of the live entries, and what entering the list,
leaving it, activation and progress do to them. -/

namespace Sys2Proof.Machine

/-- The handles of the live entries of a scrub list, oldest first. -/
def liveHandles (es : List ScrubEntry) : List Handle := (es.filter fun e => e.state.live).map ScrubEntry.handle

theorem liveHandles_append (a b : List ScrubEntry) : liveHandles (a ++ b) = liveHandles a ++ liveHandles b := by
  simp [liveHandles]

theorem liveHandles_cons_live {e : ScrubEntry} (live : e.state.live = true) (es : List ScrubEntry) :
    liveHandles (e :: es) = e.handle :: liveHandles es := by
  simp [liveHandles, live]

theorem liveHandles_cons_finished {e : ScrubEntry} (done : e.state.live = false) (es : List ScrubEntry) :
    liveHandles (e :: es) = liveHandles es := by
  simp [liveHandles, done]

theorem mem_liveHandles {h : Handle} {es : List ScrubEntry} :
    h ∈ liveHandles es ↔ ∃ e ∈ es, e.state.live = true ∧ e.handle = h := by
  simp [liveHandles, and_assoc]

theorem countP_liveFor (h : Handle) (es : List ScrubEntry) :
    es.countP (ScrubEntry.liveFor h) = (liveHandles es).count h := by
  induction es with
  | nil => rfl
  | cons e es ih =>
    rw [List.countP_cons, ih]
    by_cases live : e.state.live = true
    · rw [liveHandles_cons_live live, List.count_cons]
      simp [ScrubEntry.liveFor, live]
    · rw [liveHandles_cons_finished (by simpa using live)]
      simp [ScrubEntry.liveFor, live]

/-- An ACTIVE entry is live. -/
theorem ScrubEntry.live_of_active {e : ScrubEntry} (active : e.active = true) : e.state.live = true := by
  simp only [ScrubEntry.active] at active
  cases h : e.state <;> simp_all [ScrubState.isActive, ScrubState.live]

/-- A QUEUED entry is live and not ACTIVE. -/
theorem ScrubEntry.live_of_queued {e : ScrubEntry} (queued : e.isQueued = true) :
    e.state.live = true ∧ e.active = false := by
  simpa [ScrubEntry.isQueued, ScrubEntry.active] using queued

/-- A live entry is QUEUED or ACTIVE (Table 9-1). -/
theorem ScrubEntry.queued_of_live {e : ScrubEntry} (live : e.state.live = true) (notActive : e.active = false) :
    e.isQueued = true := by
  simp only [ScrubEntry.active] at notActive
  simp [ScrubEntry.isQueued, live, notActive]

/-- Some entry of the list is ACTIVE. -/
def ScrubEngine.HasActive (e : ScrubEngine) : Prop := ∃ x ∈ e.list, x.active = true

/-- The law of the engine by itself (R152 to R155), but for the sentence that a QUEUED entry needs an ACTIVE one. -/
structure ScrubEngine.Sound (e : ScrubEngine) : Prop where
  one : e.list.countP ScrubEntry.active ≤ 1
  breq : e.breq = true → e.HasActive
  run : e.run.isSome = true → e.HasActive
  flight : e.flight.isSome = e.run.isSome

/-- While an entry is QUEUED one is ACTIVE (R154). -/
def ScrubEngine.Served (e : ScrubEngine) : Prop := (∃ x ∈ e.list, x.isQueued = true) → e.HasActive

/-- The engine after activation. -/
def ScrubEngine.activated (e : ScrubEngine) : ScrubEngine :=
  if (e.list.find? ScrubEntry.active).isSome ∨ ¬e.list.any ScrubEntry.isQueued then e
  else { e with list := activateOldest e.list, breq := !e.bgnt }

namespace State

variable {s t : State}

/-- The leases in SCRUB are those of the live handles, each once (R152). -/
structure Listed (s : State) (hs : List Handle) : Prop where
  once : ∀ k, s.InScrub k → hs.count (s.handle k) = 1
  named : ∀ h ∈ hs, ∃ k, s.InScrub k ∧ h = s.handle k

/-- The scrub law but for what it says of the transactions that wait. -/
structure ScrubCore (s : State) : Prop where
  sound : s.scrub.Sound
  served : s.scrub.Served
  listed : s.Listed (liveHandles s.scrub.list)

theorem activeEntry_isSome_iff : s.activeEntry.isSome = true ↔ s.scrub.HasActive := by
  simp [activeEntry, ScrubEngine.HasActive, List.find?_isSome]

theorem activeEntry_eq_none_iff : s.activeEntry = none ↔ ¬s.scrub.HasActive := by
  rw [← activeEntry_isSome_iff, Option.not_isSome_iff_eq_none]

/-- A handle names a lease in SCRUB exactly when it is the handle of such a slot. -/
theorem scrubbed_isSome_iff {h : Handle} : (s.scrubbed h).isSome = true ↔ ∃ k, s.InScrub k ∧ h = s.handle k := by
  constructor
  · intro found
    unfold scrubbed at found
    split at found
    · rename_i k o g range notices look
      obtain ⟨eq, holds⟩ := (lookup_eq_some s).1 look
      exact ⟨k, ⟨_, holds, rfl⟩, eq⟩
    · cases found
  · rintro ⟨k, ⟨l, holds, state⟩, eq⟩
    obtain ⟨range, hold, notices⟩ := l
    cases hold with
    | scrub o g =>
      have look : s.lookup h = some (k, ⟨range, .scrub o g, notices⟩) := (lookup_eq_some s).2 ⟨eq, holds⟩
      simp [scrubbed, look]
    | held | grace | tainted | shared => cases state

/-- The lease a live handle names. -/
theorem scrubbed_of_holds {k : SlotIx} {l : Lease} {o : Mid} {g : Tag} (holds : s.lease k = some l)
    (hold : l.hold = .scrub o g) : s.scrubbed (s.handle k) = some (k, l) := by
  obtain ⟨range, hold', notices⟩ := l
  simp only at hold
  subst hold
  have look : s.lookup (s.handle k) = some (k, ⟨range, .scrub o g, notices⟩) := (lookup_eq_some s).2 ⟨rfl, holds⟩
  simp [scrubbed, look]

/-- The scrub law in these terms. -/
theorem scrubLaw_iff : s.ScrubLaw ↔ s.ScrubCore ∧ (s.held ≠ [] → s.scrub.run.isSome = true) := by
  have queued : s.scrub.list.any ScrubEntry.isQueued = true ↔ ∃ x ∈ s.scrub.list, x.isQueued = true := by simp
  simp only [ScrubLaw, countP_liveFor, activeEntry_isSome_iff, scrubbed_isSome_iff, queued]
  constructor
  · rintro ⟨one, served, once, named, breq, run, flight, held⟩
    refine ⟨⟨⟨one, breq, run, flight⟩, served, ⟨?_, ?_⟩⟩, held⟩
    · rintro k ⟨l, holds, state⟩; exact once k l holds state
    · intro h mem
      obtain ⟨e, he, live, rfl⟩ := mem_liveHandles.1 mem
      exact named e he live
  · rintro ⟨⟨⟨one, breq, run, flight⟩, served, listed⟩, held⟩
    exact ⟨one, served, fun k l holds state => listed.once k ⟨l, holds, state⟩,
      fun e he live => listed.named _ (mem_liveHandles.2 ⟨e, he, live, rfl⟩), breq, run, flight, held⟩

/-- The core looks at the engine, and at which slots are in SCRUB under which handles. -/
theorem ScrubCore.congr (core : s.ScrubCore) (scrub : t.scrub = s.scrub) (same : ∀ k, t.InScrub k ↔ s.InScrub k)
    (gen : ∀ k, s.InScrub k → (t.slot k).gen = (s.slot k).gen) : t.ScrubCore := by
  obtain ⟨sound, served, once, named⟩ := core
  have handle : ∀ k, s.InScrub k → t.handle k = s.handle k := fun k h => congrArg (handleOf · k) (gen k h)
  refine ⟨by rw [scrub]; exact sound, by rw [scrub]; exact served, ⟨fun k h => ?_, fun h mem => ?_⟩⟩
  · rw [scrub, handle k ((same k).1 h)]; exact once k ((same k).1 h)
  · rw [scrub] at mem
    obtain ⟨k, inScrub, eq⟩ := named h mem
    exact ⟨k, (same k).2 inScrub, eq.trans (handle k inScrub).symm⟩

/-- The core after a change of the engine alone that keeps the live handles. -/
theorem ScrubCore.setScrub (core : s.ScrubCore) {e : ScrubEngine} (sound : e.Sound) (served : e.Served)
    (handles : liveHandles e.list = liveHandles s.scrub.list) : (s.setScrub e).ScrubCore :=
  ⟨sound, served, ⟨fun k h => by rw [setScrub_scrub, handles]; exact core.listed.once k h, fun h mem => by
    rw [setScrub_scrub, handles] at mem; exact core.listed.named h mem⟩⟩

/-! ### The ACTIVE entry -/

/-- The list around its ACTIVE entry: no other entry is ACTIVE. -/
theorem split_active {e : ScrubEngine} {x : ScrubEntry} (one : e.list.countP ScrubEntry.active ≤ 1)
    (found : e.list.find? ScrubEntry.active = some x) :
    ∃ older younger, e.list = older ++ x :: younger ∧ x.active = true ∧
      ∀ y ∈ older ++ younger, y.active = false := by
  obtain ⟨active, older, younger, split, before⟩ := List.find?_eq_some_iff_append.1 found
  refine ⟨older, younger, split, active, fun y hy => ?_⟩
  rcases List.mem_append.1 hy with old | young
  · simpa using before y old
  · rw [split, List.countP_append, List.countP_cons_of_pos active] at one
    have none : younger.countP ScrubEntry.active = 0 := by omega
    simpa using List.countP_eq_zero.1 none y young

/-- Finding the ACTIVE entry of such a list. -/
theorem find_active {older younger : List ScrubEntry} {x : ScrubEntry} (active : x.active = true)
    (before : ∀ y ∈ older, y.active = false) : (older ++ x :: younger).find? ScrubEntry.active = some x :=
  List.find?_eq_some_iff_append.2 ⟨active, older, younger, rfl, fun y hy => by simp [before y hy]⟩

/-- Changing the ACTIVE entry of such a list. -/
theorem map_active {older younger : List ScrubEntry} {x : ScrubEntry} (active : x.active = true)
    (others : ∀ y ∈ older ++ younger, y.active = false) (st : ScrubState) :
    ((older ++ x :: younger).map fun e => if e.active then { e with state := st } else e) =
      older ++ { x with state := st } :: younger := by
  have same : ∀ ys : List ScrubEntry, (∀ y ∈ ys, y.active = false) →
      (ys.map fun e : ScrubEntry => if e.active then { e with state := st } else e) = ys := by
    intro ys none
    refine (List.map_congr_left fun y hy => ?_).trans (List.map_id ys)
    rw [if_neg (by simp [none y hy])]; rfl
  rw [List.map_append, List.map_cons, same older fun y hy => others y (by simp [hy]),
    same younger fun y hy => others y (by simp [hy]), if_pos active]

/-- Removing the ACTIVE entry of such a list. -/
theorem filter_active {older younger : List ScrubEntry} {x : ScrubEntry} (active : x.active = true)
    (others : ∀ y ∈ older ++ younger, y.active = false) :
    ((older ++ x :: younger).filter fun e => !e.active) = older ++ younger := by
  have same : ∀ ys : List ScrubEntry, (∀ y ∈ ys, y.active = false) → (ys.filter fun e => !e.active) = ys :=
    fun ys none => List.filter_eq_self.2 fun y hy => by simp [none y hy]
  rw [List.filter_append, List.filter_cons_of_neg (by simp [active]), same older fun y hy => others y (by simp [hy]),
    same younger fun y hy => others y (by simp [hy])]

/-! ### Activation (R154) -/

theorem activate_eq (s : State) : s.activate = s.setScrub s.scrub.activated := by
  by_cases idle : s.activeEntry.isSome = true ∨ ¬s.scrub.list.any ScrubEntry.isQueued = true
  · have engine : s.scrub.activated = s.scrub := if_pos idle
    rw [activate, if_pos idle, engine]; rfl
  · have engine : s.scrub.activated = { s.scrub with list := activateOldest s.scrub.list, breq := !s.scrub.bgnt } :=
      if_neg idle
    rw [activate, if_neg idle, engine]

/-- The list around its oldest QUEUED entry. -/
theorem split_queued {es : List ScrubEntry} (queued : es.any ScrubEntry.isQueued = true) :
    ∃ older q younger p, es = older ++ q :: younger ∧ q.state = .queued p ∧ ∀ y ∈ older, y.isQueued = false := by
  obtain ⟨q, found⟩ := Option.isSome_iff_exists.1 (by simpa [List.find?_isSome] using queued :
    (es.find? ScrubEntry.isQueued).isSome = true)
  obtain ⟨isQueued, older, younger, split, before⟩ := List.find?_eq_some_iff_append.1 found
  cases state : q.state with
  | queued p => exact ⟨older, q, younger, p, split, state, fun y hy => by simpa using before y hy⟩
  | active | done | failed => simp [ScrubEntry.isQueued, state, ScrubState.live, ScrubState.isActive] at isQueued

/-- Activation keeps the live handles, and gives a QUEUED entry its ACTIVE one. -/
theorem activated_spec {e : ScrubEngine} (sound : e.Sound) :
    e.activated.Sound ∧ e.activated.Served ∧ liveHandles e.activated.list = liveHandles e.list := by
  unfold ScrubEngine.activated
  split
  · rename_i idle
    refine ⟨sound, fun queued => ?_, rfl⟩
    rcases idle with some_active | none_queued
    · simpa [ScrubEngine.HasActive, List.find?_isSome] using some_active
    · exact absurd (by simpa using queued) none_queued
  · rename_i starts
    simp only [not_or, Decidable.not_not, Option.not_isSome_iff_eq_none] at starts
    obtain ⟨none_active, queued⟩ := starts
    obtain ⟨older, q, younger, p, split, state, before⟩ := split_queued queued
    have activeIs : ∀ y ∈ e.list, y.active = false := by simpa [List.find?_eq_none] using none_active
    have list : activateOldest e.list = older ++ { q with state := .active p } :: younger := by
      rw [split]; exact activateOldest_split state before
    have has : ∃ x ∈ activateOldest e.list, x.active = true :=
      ⟨{ q with state := .active p }, by rw [list]; simp, rfl⟩
    refine ⟨⟨?_, fun _ => has, fun _ => has, sound.flight⟩, fun _ => has, ?_⟩
    · rw [list, List.countP_append, List.countP_cons_of_pos (show ScrubEntry.active _ = true from rfl)]
      have zero : ∀ ys : List ScrubEntry, (∀ y ∈ ys, y.active = false) → ys.countP ScrubEntry.active = 0 :=
        fun ys none => List.countP_eq_zero.2 fun y hy => by simp [none y hy]
      rw [zero older fun y hy => activeIs y (by simp [split, hy]),
        zero younger fun y hy => activeIs y (by simp [split, hy])]
    · rw [list, split, liveHandles_append, liveHandles_append,
        liveHandles_cons_live (by simp [state, ScrubState.live] : q.state.live = true),
        liveHandles_cons_live (show ScrubState.live _ = true from rfl)]

/-! ### Entering and leaving the list -/

/-- A lease entered SCRUB in slot `k`, and a QUEUED entry for it joined the young end (R153). -/
theorem ScrubCore.enter (core : s.ScrubCore) {k : SlotIx} {p : Nat} (was : ¬s.InScrub k)
    (inScrub : ∀ j, t.InScrub j ↔ s.InScrub j ∨ j = k) (gen : ∀ j, (t.slot j).gen = (s.slot j).gen)
    (scrub : t.scrub =
      ({ s.scrub with list := s.scrub.list ++ [{ handle := s.handle k, state := .queued p }] } :
        ScrubEngine).activated) : t.ScrubCore := by
  have handle : ∀ j, t.handle j = s.handle j := fun j => congrArg (handleOf · j) (gen j)
  have apart : ∀ i j, s.handle i = s.handle j → i = j := by
    intro i j eq
    rw [← Handle.slot_handleOf (s.slot i).gen i, ← Handle.slot_handleOf (s.slot j).gen j]
    exact congrArg Handle.slot eq
  have grows : ∀ {x : ScrubEntry}, x ∈ s.scrub.list →
      x ∈ s.scrub.list ++ [({ handle := s.handle k, state := .queued p } : ScrubEntry)] := fun h => by simp [h]
  obtain ⟨sound, served, handles⟩ := activated_spec
    (e := { s.scrub with list := s.scrub.list ++ [{ handle := s.handle k, state := .queued p }] })
    ⟨by
      rw [List.countP_append]
      simpa [ScrubEntry.active, ScrubState.isActive] using core.sound.one,
      fun h => let ⟨x, hx, a⟩ := core.sound.breq h; ⟨x, grows hx, a⟩,
      fun h => let ⟨x, hx, a⟩ := core.sound.run h; ⟨x, grows hx, a⟩, core.sound.flight⟩
  rw [liveHandles_append] at handles
  have last : liveHandles [({ handle := s.handle k, state := .queued p } : ScrubEntry)] = [s.handle k] := rfl
  rw [last] at handles
  have fresh : s.handle k ∉ liveHandles s.scrub.list := by
    intro mem
    obtain ⟨j, inScrub, eq⟩ := core.listed.named _ mem
    exact was (apart k j eq ▸ inScrub)
  refine ⟨by rw [scrub]; exact sound, by rw [scrub]; exact served, ⟨fun j h => ?_, fun h mem => ?_⟩⟩
  · rw [scrub, handles, handle, List.count_append]
    rcases (inScrub j).1 h with old | rfl
    · have ne : s.handle k ≠ s.handle j := fun eq => was (apart k j eq ▸ old)
      rw [core.listed.once j old]
      simp [ne]
    · rw [List.count_eq_zero.2 fresh]
      simp
  · rw [scrub, handles, List.mem_append] at mem
    rcases mem with old | new
    · obtain ⟨j, old, eq⟩ := core.listed.named h old
      exact ⟨j, (inScrub j).2 (.inl old), by rw [handle, eq]⟩
    · exact ⟨k, (inScrub k).2 (.inr rfl), by rw [handle]; simpa using new⟩

/-- A lease left SCRUB in slot `k`, and its live entry the list (R157, R158, R160). -/
theorem ScrubCore.leave (core : s.ScrubCore) {k : SlotIx} {e : ScrubEngine}
    (inScrub : ∀ j, t.InScrub j ↔ s.InScrub j ∧ j ≠ k) (gen : ∀ j, (t.slot j).gen = (s.slot j).gen)
    (sound : e.Sound) (handles : liveHandles e.list = (liveHandles s.scrub.list).filter (· ≠ s.handle k))
    (scrub : t.scrub = e.activated) : t.ScrubCore := by
  have handle : ∀ j, t.handle j = s.handle j := fun j => congrArg (handleOf · j) (gen j)
  obtain ⟨sound', served, same⟩ := activated_spec sound
  refine ⟨by rw [scrub]; exact sound', by rw [scrub]; exact served, ⟨fun j h => ?_, fun h mem => ?_⟩⟩
  · obtain ⟨was, ne⟩ := (inScrub j).1 h
    have apart : s.handle j ≠ s.handle k := by
      intro eq
      refine ne ?_
      rw [← Handle.slot_handleOf (s.slot j).gen j, ← Handle.slot_handleOf (s.slot k).gen k]
      exact congrArg Handle.slot eq
    rw [scrub, same, handles, handle, List.count_filter (by simpa using apart)]
    exact core.listed.once j was
  · rw [scrub, same, handles, List.mem_filter] at mem
    obtain ⟨mem, ne⟩ := mem
    obtain ⟨j, was, eq⟩ := core.listed.named h mem
    refine ⟨j, (inScrub j).2 ⟨was, ?_⟩, by rw [handle, eq]⟩
    rintro rfl
    simp [eq] at ne

/-- The live handles around an entry that has its handle for itself. -/
theorem filter_liveHandles {older younger : List ScrubEntry} {x : ScrubEntry} (live : x.state.live = true)
    (once : (liveHandles (older ++ x :: younger)).count x.handle = 1) :
    (liveHandles (older ++ x :: younger)).filter (· ≠ x.handle) = liveHandles (older ++ younger) := by
  rw [liveHandles_append, liveHandles_cons_live live, List.count_append, List.count_cons_self] at once
  have none : ∀ es : List ScrubEntry, (liveHandles es).count x.handle = 0 →
      (liveHandles es).filter (· ≠ x.handle) = liveHandles es := by
    intro es zero
    refine List.filter_eq_self.2 fun h mem => ?_
    have : h ≠ x.handle := fun eq => List.count_eq_zero.1 zero (eq ▸ mem)
    simpa using this
  rw [liveHandles_append, liveHandles_cons_live live, List.filter_append, List.filter_cons_of_neg (by simp),
    none older (by omega), none younger (by omega), ← liveHandles_append]

/-- Without an ACTIVE entry, BREQ and a run, an engine is sound. -/
theorem sound_of_idle {e : ScrubEngine} (none_active : ∀ x ∈ e.list, x.active = false) (breq : e.breq = false)
    (run : e.run = none) (flight : e.flight = none) : e.Sound where
  one := by
    rw [List.countP_eq_zero.2 fun x hx => by simp [none_active x hx]]
    exact Nat.zero_le 1
  breq h := by rw [breq] at h; cases h
  run h := by rw [run] at h; cases h
  flight := by rw [run, flight]; rfl

end State

end Sys2Proof.Machine
end

section
/-! PROOF. What a command can do, said once: changes that grant nothing (`Calm`), then at most one grant or grant pass
(`Grows`), then what only the window, the bus and the clock see (`Outer`). Every invariant is proved over these. -/

namespace Sys2Proof.Machine.State

variable {s t u : State}

/-! ### The changes -/

/-- `t` differs from `s` only in the clock, the window, the bus, the reset flags and the transactions that wait. -/
def Outer (s t : State) : Prop :=
  t = { s with
        time := t.time, ticks := t.ticks, window := t.window, cause := t.cause, inReset := t.inReset
        bus := t.bus, held := t.held }

/-- The claim queue thins out: no claim joins it, waits only fall, and waiting counts fall with it (R128). -/
structure Thins (s t : State) : Prop where
  frame : t = { s with queue := t.queue, masters := t.masters }
  claims : (t.queue.map ClaimEntry.claim).Sublist (s.queue.map ClaimEntry.claim)
  waits : s.TermLaw → ∀ e ∈ t.queue, e.isWaiting = true → 1 ≤ e.left
  master : ∀ n, t.master n = { s.master n with waiting := (t.master n).waiting }
  waiting : s.QueueLaw → ∀ n, t.waitingNow n ≤ s.waitingNow n ∧
    (t.master n).waiting = (s.master n).waiting - (s.waitingNow n - t.waitingNow n)

/-- The record `x` can become that of `m`: its counts stay, its quota covers them, it loses no attachment, is not fenced by
it, and does not come to meet its threshold unfenced. -/
structure Remasters (s : State) (m : Mid) (x : Master) : Prop where
  held : x.held = (s.master m).held
  waiting : x.waiting = (s.master m).waiting
  quota : (s.master m).held + (s.master m).waiting ≤ (s.master m).quota →
    (s.master m).held + (s.master m).waiting ≤ x.quota
  orphan : x.orphan = (s.master m).orphan ∨ x.orphan = none
  unattached : x.state ≠ .attached → (s.master m).state ≠ .attached
  fenced : x.state = .fenced → (s.master m).state = .fenced
  threshold : s.ThresholdLaw → m ≠ s.supmid → 0 < x.threshold → x.threshold ≤ x.violations → x.state = .fenced

/-- A claim that has passed the checks of CLAIM which do not look at other claims (Table 3-2). -/
structure Admits (s : State) (c : Claim) : Prop where
  attached : s.attached c.master = true
  room : (s.master c.master).held + (s.master c.master).waiting < (s.master c.master).quota
  granules : 0 < c.range.count
  range : s.InEnabledPool c.range
  term : s.TermLaw → 1 ≤ c.term

/-- A change that grants nothing. -/
inductive Calm (s : State) : State → Prop
  /-- Only the outside sees it. -/
  | outer {t : State} (outer : s.Outer t) : Calm s t
  /-- The lease table loses, and the scrub engine moves with it. -/
  | table {t : State} {e : ScrubEngine} (steps : Relation.ReflTransGen Descent s t) (terms : s.TermLaw → t.TermLaw)
      (finished : ∀ x ∈ e.list, x.finished = true → x ∈ s.scrub.list ∨ s.attached s.supmid = true)
      (core : s.ScrubCore → (t.setScrub e).ScrubCore) : Calm s (t.setScrub e)
  /-- The claim queue thins out. -/
  | thin {t : State} (thins : s.Thins t) : Calm s t
  /-- A claim joins the young end of the queue (R50). -/
  | enqueue {c : Claim} {wait : Nat} (admits : s.Admits c) (waits : 1 ≤ wait) (few : s.entriesOf c.master < 4)
      (short : s.queue.length < 16) (tags : ∀ e ∈ s.queue, e.claim.master = c.master → e.claim.tag ≠ c.tag) :
      Calm s ((s.setQueue (s.queue ++ [{ claim := c, status := .waiting wait }])).raiseWaiting c.master)
  /-- A TAINTED lease becomes `m`'s own (R161). -/
  | adopt {m : Mid} {k : SlotIx} {l : Lease} {o : Mid} {g : Tag} {n : Term} (holds : s.lease k = some l) (hold : l.hold = .tainted o g)
      (attached : s.attached m = true) (room : (s.master m).held + (s.master m).waiting < (s.master m).quota)
      (term : s.TermLaw → TermRuns n) :
      Calm s ((s.setLease k { l with hold := .held m g n [] }).raiseHeld m)
  /-- A master's record changes in its settings. -/
  | master {m : Mid} {x : Master} (remasters : s.Remasters m x) : Calm s (s.setMaster m x)
  /-- An ATTACHED master without leases is DETACHED (R131). -/
  | strip {m : Mid} (attached : s.attached m = true) (clear : s.ClearOf m)
      (finished : m = s.supmid → ∀ x ∈ s.scrub.list, x.finished = false) : Calm s (s.strip m .detached)
  /-- A master other than the supervisor is fenced, its settings having changed (R137). -/
  | fence {m : Mid} {x : Master} (notSupervisor : m ≠ s.supmid) (held : x.held = (s.master m).held)
      (waiting : x.waiting = (s.master m).waiting)
      (quota : (s.master m).held + (s.master m).waiting ≤ (s.master m).quota →
        (s.master m).held + (s.master m).waiting ≤ x.quota) : Calm s ((s.setMaster m x).fenceClean m)
  /-- A pool that nothing uses is replaced (R10, R13). -/
  | repool {p : PoolIx} {x : Pool} (leases : ∀ k l, s.lease k = some l → l.range.pool ≠ p)
      (entries : ∀ e ∈ s.queue, e.claim.range.pool ≠ p) (maxTerm : 1 ≤ x.maxTerm)
      (pools : s.PoolLaw → (s.setPool p x).PoolLaw) : Calm s (s.setPool p x)
  /-- A soft reset (R142). -/
  | softReset : Calm s s.softReset

/-- A claim granted at submission (R47 to R49). -/
inductive NewGrant (s : State) : State → Prop
  | intro {c : Claim} {p : Place} (admits : s.Admits c) (own : s.overlapsOwn c = none)
      (grantable : s.grantable s.queue c = some p) : NewGrant s (s.grantAt c p)

/-- What follows a change: nothing, a grant pass, or a grant at submission. -/
def Grows (s t : State) : Prop := t = s ∨ t = s.grantPass ∨ s.NewGrant t

/-- What one event of the part does. -/
def Deed (s t : State) : Prop := ∃ u v, Relation.ReflTransGen Calm s u ∧ u.Grows v ∧ v.Outer t

/-! ### Putting deeds together -/

theorem Outer.refl (s : State) : s.Outer s := rfl

theorem Outer.trans (h : s.Outer t) (g : t.Outer u) : s.Outer u := by
  unfold Outer at *
  rw [g, h]

theorem Deed.calms (h : Relation.ReflTransGen Calm s t) : s.Deed t := ⟨t, t, h, .inl rfl, .refl t⟩

theorem Deed.calm (h : s.Calm t) : s.Deed t := .calms (.single h)

theorem Deed.refl (s : State) : s.Deed s := .calms .refl

theorem Deed.pass (h : Relation.ReflTransGen Calm s t) : s.Deed t.grantPass := ⟨t, _, h, .inr (.inl rfl), .refl _⟩

theorem Deed.grant (h : s.NewGrant t) : s.Deed t := ⟨s, t, .refl, .inr (.inr h), .refl t⟩

theorem Deed.outer (h : s.Deed t) (g : t.Outer u) : s.Deed u := by
  obtain ⟨a, b, calms, grows, outer⟩ := h
  exact ⟨a, b, calms, grows, outer.trans g⟩

theorem Deed.after (h : s.Calm t) (g : t.Deed u) : s.Deed u := by
  obtain ⟨a, b, calms, grows, outer⟩ := g
  exact ⟨a, b, .head h calms, grows, outer⟩

theorem Deed.afterOuter (h : s.Outer t) (g : t.Deed u) : s.Deed u := .after (.outer h) g

/-- What every change keeps, a run of changes keeps. -/
theorem keeps_of_calms {P : State → Prop} (calm : ∀ s t, Calm s t → P s → P t)
    (h : Relation.ReflTransGen Calm s t) (start : P s) : P t := by
  induction h with
  | refl => exact start
  | tail _ last ih => exact calm _ _ last ih

/-- What every change and every grant keeps, a deed keeps. -/
theorem Deed.keeps {P : State → Prop} (calm : ∀ s t, Calm s t → P s → P t) (new : ∀ s t, NewGrant s t → P s → P t)
    (pass : ∀ s t, PassGrant s t → P s → P t) (h : s.Deed t) (start : P s) : P t := by
  obtain ⟨a, b, calms, grows, outer⟩ := h
  have first : P a := keeps_of_calms calm calms start
  have second : P b := by
    rcases grows with rfl | rfl | granted
    · exact first
    · exact grantPass_induction pass first
    · exact new _ _ granted first
  exact calm _ _ (.outer outer) second

/-! ### Changes of the lease table -/

/-- What a run of changes of the lease table leaves. -/
theorem frame_of_descents (h : Relation.ReflTransGen Descent s t) :
    t = { s with slots := t.slots, masters := t.masters } := by
  induction h with
  | refl => rfl
  | tail _ last ih => rw [last.frame, ih]

theorem gen_of_descents (h : Relation.ReflTransGen Descent s t) (k : SlotIx) : (t.slot k).gen = (s.slot k).gen := by
  induction h with
  | refl => rfl
  | tail _ last ih => rw [last.gen, ih]

theorem attached_of_descents (h : Relation.ReflTransGen Descent s t) : t.attached = s.attached := by
  induction h with
  | refl => rfl
  | tail _ last ih => rw [last.attached, ih]

theorem Quiet.calm (h : s.Quiet t) : s.Calm t := by
  have engine : t.scrub = s.scrub := by rw [frame_of_descents h.steps]
  have same : t.setScrub s.scrub = t := by rw [← engine]; rfl
  rw [← same]
  refine .table h.steps h.terms (fun x mem _ => .inl mem) fun core => ?_
  rw [same]
  exact core.congr engine h.scrub fun k _ => gen_of_descents h.steps k

/-- A change of the engine alone. -/
theorem Calm.engine {e : ScrubEngine}
    (finished : ∀ x ∈ e.list, x.finished = true → x ∈ s.scrub.list ∨ s.attached s.supmid = true)
    (core : s.ScrubCore → (s.setScrub e).ScrubCore) : s.Calm (s.setScrub e) :=
  .table .refl id finished core

theorem Quiet.deed (h : s.Quiet t) : s.Deed t := .calm h.calm

/-! ### The checks in front of a rule -/

theorem deed_unlessRefused {a : Option Answer} {x : State × Answer} (h : a = none → s.Deed x.1) :
    s.Deed (s.unlessRefused a x).1 := by
  cases a with
  | none => exact h rfl
  | some a => exact .refl s

theorem deed_onLease {a : Option Answer} {h : Handle} {b : Answer} {rule : SlotIx → Lease → State × Answer}
    (each : ∀ k l, a = none → h = s.handle k → s.lease k = some l → s.Deed (rule k l).1) :
    s.Deed (s.onLease a h b rule).1 := by
  cases a with
  | some a => exact .refl s
  | none =>
    simp only [onLease]
    cases look : s.lookup h with
    | none => exact .refl s
    | some x =>
      obtain ⟨named, holds⟩ := (lookup_eq_some s).1 (show s.lookup h = some (x.1, x.2) from look)
      exact each x.1 x.2 rfl named holds

/-- Whoever passes the standing checks is ATTACHED (R127). -/
theorem attached_of_standing {m : Mid} (h : s.standing m = none) : s.attached m = true := by
  unfold standing at h
  split at h
  · cases h
  · split at h
    · assumption
    · cases h

/-- Whoever passes those of a supervisor request is the supervisor too (R127). -/
theorem supervisor_of_standing {m : Mid} (h : s.supervisorStanding m = none) : s.attached m = true ∧ m = s.supmid := by
  unfold supervisorStanding at h
  split at h
  · cases h
  · rename_i standing
    split at h
    · rename_i sup; exact ⟨attached_of_standing standing, by simpa [isSupervisor] using sup⟩
    · cases h

end Sys2Proof.Machine.State
end

section
/-! PROOF. Every request of Table 10-2 is a deed (`Deed`), rule by rule. -/

namespace Sys2Proof.Machine.State

variable {s t u : State} {k : SlotIx} {l : Lease} {m : Mid}

/-! ### A grant pass does not see the scrub engine -/

theorem grantInPass_setScrub (s : State) (e : ScrubEngine) (c : Claim) (p : Place) :
    (s.setScrub e).grantInPass c p = (s.grantInPass c p).setScrub e := by
  have grant : (s.setScrub e).grantAt c p = (s.grantAt c p).setScrub e := by
    cases p with
    | join k => simp only [grantAt, lease_setScrub]; cases s.lease k <;> rfl
    | fresh k => rfl
  have tell : ∀ (u : State) (k : SlotIx) (x : NoticeKind) (m : Mid),
      (u.setScrub e).notify k x m = (u.notify k x m).setScrub e := by
    intro u k x m
    have view : (u.setScrub e).attached m = u.attached m := rfl
    simp only [notify, view, lease_setScrub]
    split
    · cases u.lease k <;> rfl
    · rfl
  rw [grantInPass, grant]
  exact tell ((s.grantAt c p).lowerWaiting c.master) _ _ _

theorem grantScan_setScrub (older rest : List ClaimEntry) (s : State) (e : ScrubEngine) :
    grantScan older rest (s.setScrub e) = (grantScan older rest s).setScrub e := by
  induction rest generalizing older s with
  | nil => rfl
  | cons x rest ih =>
    have place : (s.setScrub e).passPlace older x = s.passPlace older x := rfl
    simp only [grantScan, place]
    cases s.passPlace older x with
    | none => exact ih _ _
    | some p =>
      have tail := ih older (s.grantInPass x.claim p)
      rwa [← grantInPass_setScrub] at tail

theorem grantPass_setScrub (s : State) (e : ScrubEngine) : (s.setScrub e).grantPass = s.grantPass.setScrub e :=
  grantScan_setScrub [] s.queue s e

/-- Activation may as well come before the grant pass. -/
theorem activate_grantPass (s : State) : s.grantPass.activate = s.activate.grantPass := by
  rw [activate_eq, activate_eq, grantPass_setScrub]
  have scrub : s.grantPass.scrub = s.scrub := by rw [grantPass_frame]
  rw [scrub]

/-- A run of changes of the lease table keeps the straps. -/
theorem supmid_of_descents (h : Relation.ReflTransGen Descent s t) : t.supmid = s.supmid := by
  rw [frame_of_descents h]

theorem supmid_dropAllNotices (s : State) (m : Mid) : (s.dropAllNotices m).supmid = s.supmid := by
  rw [dropAllNotices_eq, silence_frame]

/-! ### Changes of a master's record -/

/-- Clearing an orphan field (R147, R131). -/
theorem calm_dropOrphan (s : State) (m : Mid) : s.Calm (s.setMaster m { s.master m with orphan := none }) :=
  .master
    { held := rfl, waiting := rfl, quota := id, orphan := .inr rfl, unattached := id, fenced := id
      threshold := fun law sup => law m sup }

/-- With the violation count cleared no threshold is met (R141). -/
theorem calm_cleared (s : State) (m : Mid) : s.Calm (s.setMaster m (s.master m).cleared) :=
  .master
    { held := rfl, waiting := rfl, quota := id, orphan := .inl rfl, unattached := id, fenced := id
      threshold := fun _ _ positive met => absurd met (Nat.not_le.2 positive) }

theorem deed_attach (s : State) (m : Mid) : s.Deed (attachRule s m).1 := by
  unfold attachRule
  split
  · exact .refl s
  · rename_i notFenced
    split
    · exact .refl s
    · refine .calm (.master ?_)
      exact
        { held := rfl, waiting := rfl, quota := id, orphan := .inl rfl
          unattached := fun no => absurd rfl no
          fenced := fun is => MasterState.noConfusion is
          threshold := fun law sup positive met =>
            absurd (law m sup positive met) (by simpa [State.fenced] using notFenced) }

theorem deed_unfence (s : State) (m : Mid) : s.Deed (unfenceRule s m).1 := by
  refine deed_unlessRefused fun _ => ?_
  dsimp only
  split
  · exact .refl s
  · rename_i fenced
    refine .calm (.master ?_)
    exact
      { held := rfl, waiting := rfl, quota := id, orphan := .inl rfl
        unattached := fun _ => by simp only [State.fenced] at fenced; simp_all
        fenced := fun is => MasterState.noConfusion is
        threshold := fun _ _ positive met => absurd met (Nat.not_le.2 positive) }

theorem deed_clearNote (s : State) (m : Mid) : s.Deed (clearNoteRule s m).1 :=
  deed_unlessRefused fun _ => .calm (calm_cleared s _)

/-! ### DETACH and the fence -/

/-- A fence of a master other than the supervisor, its settings having changed (R137). -/
theorem deed_fenceMaster {x : Master} (notSupervisor : m ≠ s.supmid) (held : x.held = (s.master m).held)
    (waiting : x.waiting = (s.master m).waiting)
    (quota : (s.master m).held + (s.master m).waiting ≤ (s.master m).quota →
      (s.master m).held + (s.master m).waiting ≤ x.quota) : s.Deed ((s.setMaster m x).fenceMaster m) := by
  rw [fenceMaster_eq]
  exact .pass (.single (.fence notSupervisor held waiting quota))

theorem deed_fence (s : State) (m : Mid) : s.Deed (fenceRule s m).1 := by
  refine deed_unlessRefused fun _ => ?_
  split
  · exact .refl s
  · rename_i sup
    split
    · exact .refl s
    · have notSupervisor : (s.win m).argMaster ≠ s.supmid := isSupervisor_eq_false_iff.1 (by simpa using sup)
      have fenced := deed_fenceMaster (x := s.master (s.win m).argMaster) notSupervisor rfl rfl id
      rw [setMaster_self] at fenced
      dsimp only
      exact fenced

theorem deed_setMaster (s : State) (m : Mid) : s.Deed (setMasterRule s m).1 := by
  refine deed_unlessRefused fun _ => ?_
  split
  · exact .refl s
  · split
    · exact .refl s
    · rename_i fits
      have quota : (s.master (s.win m).argMaster).held + (s.master (s.win m).argMaster).waiting ≤ (s.win m).argQuota :=
        Nat.not_lt.1 fits
      dsimp only
      split
      · rename_i meets
        refine deed_fenceMaster ?_ rfl rfl fun _ => quota
        simp only [overThreshold, Bool.and_eq_true, Bool.not_eq_true'] at meets
        exact isSupervisor_eq_false_iff.1 meets.1.1.1
      · rename_i under
        refine .calm (.master ?_)
        exact
          { held := rfl, waiting := rfl, quota := fun _ => quota, orphan := .inl rfl, unattached := id, fenced := id
            threshold := fun _ sup positive met => by
              simp [overThreshold, isSupervisor, State.fenced] at under
              by_contra notFenced
              exact absurd met (Nat.not_le.2 (under (decide_eq_false sup) notFenced positive)) }

theorem calms_dropAllNotices (s : State) (m : Mid) : Relation.ReflTransGen Calm s (s.dropAllNotices m) :=
  .tail (.single (quiet_withoutNotices s m).calm) (calm_dropOrphan _ m)

/-- Discarding the finished entries of the scrub list leaves the live ones (R131). -/
theorem calm_dropFinished (s : State) : s.Calm s.dropFinished := by
  refine .engine (fun x mem _ => .inl (List.mem_of_mem_filter mem)) fun core => ?_
  have live : ∀ x ∈ s.scrub.list, x.state.live = true → x ∈ s.scrub.list.filter fun e => !e.finished := by
    intro x mem live
    exact List.mem_filter.2 ⟨mem, by simp [ScrubEntry.finished, live]⟩
  have active : s.scrub.HasActive → ∃ x ∈ s.scrub.list.filter fun e => !e.finished, x.active = true :=
    fun ⟨x, mem, active⟩ => ⟨x, live x mem (ScrubEntry.live_of_active active), active⟩
  refine core.setScrub ?_ ?_ ?_
  · exact
      { one := (List.filter_sublist.countP_le).trans core.sound.one
        breq := fun breq => active (core.sound.breq breq)
        run := fun run => active (core.sound.run run)
        flight := core.sound.flight }
  · exact fun ⟨x, mem, queued⟩ => active (core.served ⟨x, List.mem_of_mem_filter mem, queued⟩)
  · simp [liveHandles, List.filter_filter, ScrubEntry.finished]

/-- The supervisor's own strip takes its finished entries along (R131). -/
theorem calms_stripFinished (attached : s.attached m = true) (clear : s.ClearOf m) :
    Relation.ReflTransGen Calm s (s.dropFinished.strip m .detached) := by
  refine .tail (.single (calm_dropFinished s)) (.strip attached ⟨clear.part, clear.notice, clear.orphan⟩ ?_)
  intro _ x mem
  simpa using (List.mem_filter.1 mem).2

theorem deed_detach (s : State) (m : Mid) : s.Deed (detachRule s m).1 := by
  refine deed_unlessRefused fun standing => deed_unlessRefused fun checks => ?_
  rw [detach_eq]
  have unlent : ∀ k l, s.lease k = some l → m ∉ l.hold.chain := by
    unfold detachRefusal at checks
    split at checks
    · cases checks
    · rw [Option.map_eq_none_iff, findLease_eq_none] at checks
      intro k l holds
      simpa using checks k l holds
  have attached : (s.detachTable m).attached m = true := by
    rw [attached_of_descents (quiet_detachTable s m).steps, dropAllNotices_eq, State.attached, master_silence, if_pos rfl]
    exact attached_of_standing standing
  have table : Relation.ReflTransGen Calm s (s.detachTable m) :=
    .tail (calms_dropAllNotices s m) (quiet_detachTable s m).calm
  have clear := clearOf_detachTable unlent
  refine .pass ?_
  unfold detachClean
  split
  · exact table.trans (calms_stripFinished attached clear)
  · rename_i sup
    refine .tail table (.strip attached clear fun is => absurd is ?_)
    rw [supmid_of_descents (quiet_detachTable s m).steps]
    rw [supmid_dropAllNotices]
    exact isSupervisor_eq_false_iff.1 (by simpa using sup)

/-! ### CLAIM and CANCEL -/

/-- What checks 1 to 8 of CLAIM leave (Table 3-2). -/
theorem admits_of_checks {a : ClaimArgs} (checks : claimRefusal s m a = none) :
    s.Admits (s.clampedClaim m a) ∧ s.overlapsOwn (s.clampedClaim m a) = none ∧ s.entryOf m a.tag = none := by
  simp only [claimRefusal] at checks
  split at checks
  · cases checks
  · split at checks
    · cases checks
    · rename_i attached
      split at checks
      · cases checks
      · rename_i enabled
        split at checks
        · cases checks
        · rename_i fits
          split at checks
          · cases checks
          · rename_i term
            split at checks
            · cases checks
            · rename_i tag
              split at checks
              · cases checks
              · cases checks
              · rename_i own _
                split at checks
                · cases checks
                · rename_i room
                  simp only [not_or, Nat.not_lt] at fits
                  refine ⟨?_, own, tag⟩
                  exact
                    { attached := by simpa [clampedClaim] using attached
                      room := Nat.not_le.1 room
                      granules := Nat.pos_of_ne_zero fits.1
                      range := ⟨by simpa [clampedClaim] using enabled, fits.2.2⟩
                      term := fun law => le_min (Nat.pos_of_ne_zero term) (law.2.2 _) }

theorem deed_claim (s : State) (m : Mid) : s.Deed (claimRule s m).1 := by
  refine deed_unlessRefused fun checks => ?_
  obtain ⟨admits, own, tag⟩ := admits_of_checks checks
  cases place : s.grantable s.queue (s.clampedClaim m (s.win m).claimArgs) with
  | some p => simp only [claimDispose, place]; exact .grant (.intro admits own place)
  | none =>
    simp only [claimDispose, place]
    split
    · rename_i waits
      split
      · exact .refl s
      · rename_i few
        split
        · exact .refl s
        · rename_i short
          refine .calm (.enqueue admits waits (Nat.not_le.1 few) (Nat.not_le.1 short) ?_)
          intro e mem own_entry
          have other := List.find?_eq_none.1 tag e mem
          simp only [Bool.and_eq_true, decide_eq_true_eq, not_and] at other
          exact other own_entry
    · split
      · exact .refl s
      · exact .refl s

theorem waitingNow_withdrawn {older younger : List ClaimEntry} {e : ClaimEntry} (queue : s.queue = older ++ e :: younger)
    (waiting : e.isWaiting = true) (own : e.claim.master = m) (n : Mid) :
    s.waitingNow n = (s.withdrawn m (older ++ younger)).waitingNow n + if n = m then 1 else 0 := by
  have left : (s.withdrawn m (older ++ younger)).queue = older ++ younger := rfl
  simp only [waitingNow, queue, left, List.countP_append, List.countP_cons, waiting, own]
  by_cases same : n = m
  · subst same; simp; omega
  · simp [same, Ne.symm same]

/-- A withdrawal thins the queue out by one WAITING claim (R59). -/
theorem thins_withdrawn {older younger : List ClaimEntry} {e : ClaimEntry} (queue : s.queue = older ++ e :: younger)
    (waiting : e.isWaiting = true) (own : e.claim.master = m) : s.Thins (s.withdrawn m (older ++ younger)) := by
  have sub : (older ++ younger).Sublist s.queue := by rw [queue]; exact List.Sublist.append_left (List.sublist_cons_self ..) _
  have record := withdrawn_masterBecomes s m (older ++ younger)
  refine ⟨rfl, sub.map _, fun law e mem => (law.2.1 e (sub.subset mem)).2, fun n => ?_, fun _ n => ?_⟩
  · by_cases same : n = m
    · subst same; rw [record.1]
    · rw [record.2 n same]
  · have count := waitingNow_withdrawn queue waiting own n
    refine ⟨by omega, ?_⟩
    by_cases same : n = m
    · subst same
      rw [record.1]
      simp only [if_true] at count
      simp only [count]
      omega
    · rw [record.2 n same]
      simp only [same, if_false] at count
      omega

theorem deed_cancel (s : State) (m : Mid) : s.Deed (cancelRule s m).1 := by
  refine deed_unlessRefused fun _ => ?_
  cases found : s.queue.find? (ClaimEntry.waitingOf m (s.win m).argTag) with
  | none => exact .refl s
  | some e =>
    obtain ⟨named, older, younger, queue, before⟩ := List.find?_eq_some_iff_append.1 found
    have erased : s.queue.eraseP (ClaimEntry.waitingOf m (s.win m).argTag) = older ++ younger := by
      rw [queue, List.eraseP_append_right _ (by simpa using before), List.eraseP_cons_of_pos named]
    rw [erased]
    obtain ⟨waiting, own, -⟩ := ClaimEntry.waitingOf_iff.1 named
    exact .pass (.single (.thin (thins_withdrawn queue waiting own)))

end Sys2Proof.Machine.State
end

section
/-! PROOF. The requests that name a handle, and those over pools, settings and notices, are deeds. -/

namespace Sys2Proof.Machine.State

variable {s t u : State} {k : SlotIx} {l : Lease} {m : Mid}

/-! ### Terms, release and mode changes -/

theorem find_sharer_term {es : List Sharer} (terms : ∀ e ∈ es, TermRuns e.term) (share : (Hold.shared es).shares m = true) :
    1 ≤ (Hold.shared es).grantedTerm m := by
  simp only [Hold.shares, Hold.sharers, List.any_eq_true] at share
  obtain ⟨e, mem, own⟩ := share
  cases found : es.find? fun e => e.master = m with
  | none => exact absurd own (List.find?_eq_none.1 found e mem)
  | some e' =>
    have runs := terms e' (List.mem_of_find?_eq_some found)
    simp only [Hold.grantedTerm, found, Option.map_some, Option.getD_some]
    exact runs.1.trans runs.2

/-- The term a renewal restarts is not 0 (R80, R81). -/
theorem grantedTerm_pos (accepted : renewRefusal m l = none) (terms : HoldTerms l.hold) : 1 ≤ l.hold.grantedTerm m := by
  simp only [renewRefusal] at accepted
  split at accepted
  · cases accepted
  · rename_i notClosed
    split at accepted
    · rename_i holder
      cases hold : l.hold with
      | held o g n c => rw [hold] at terms; exact terms.1.trans terms.2
      | grace o g n c left => rw [hold] at terms; exact terms.2.1
      | shared es =>
        rw [hold] at terms holder
        exact find_sharer_term terms (holder.resolve_left fun owner => by cases owner)
      | tainted o g => rw [hold] at notClosed; exact absurd rfl notClosed
      | scrub o g => rw [hold] at notClosed; exact absurd rfl notClosed
    · cases accepted

theorem sharers_renewed (es : List Sharer) (m : Mid) (n : Nat) :
    (es.map fun e => if e.master = m then { e with term := Term.start n } else e).map Sharer.master =
      es.map Sharer.master := by
  rw [List.map_map]
  refine List.map_congr_left fun e _ => ?_
  simp only [Function.comp_apply]
  split <;> rfl

/-- A renewal restarts a term and changes nothing else of a hold, but for ending a grace (R81, R82). -/
theorem quiet_renewed {n : Nat} (holds : s.lease k = some l) (term : s.TermLaw → HoldTerms l.hold → 1 ≤ n) :
    s.Quiet (s.setLease k { l with hold := l.hold.renewed m n }) := by
  cases hold : l.hold with
  | held o g x c =>
    refine quiet_setHold holds (by rw [hold]; rfl) (by rw [hold]; exact id) (by rw [hold]; exact fun _ => .inl)
      (by rw [hold]; rfl) (by rw [hold]; rfl) fun law terms => ⟨term law terms, le_rfl⟩
  | grace o g x c left =>
    refine quiet_setHold holds (by rw [hold]; rfl) (by rw [hold]; exact id) (by rw [hold]; exact fun _ => .inl)
      (by simp [hold, Hold.renewed, Hold.state]) (by rw [hold]; rfl) fun law terms => ⟨term law terms, le_rfl⟩
  | shared es =>
    refine quiet_setHold holds (by rw [hold]; rfl) ?_ ?_ (by rw [hold]; rfl) ?_ ?_
    · rw [hold]
      rintro ⟨some_sharer, few, distinct⟩
      exact ⟨by simpa using some_sharer, by simpa using few, by rw [sharers_renewed]; exact distinct⟩
    · rw [hold]
      rintro x (owner | share | frame)
      · cases owner
      · rw [shares_iff] at share
        exact .inl (.inr (.inl (shares_iff.2 (sharers_renewed es m n ▸ share))))
      · cases frame
    · rw [hold]; exact sharers_renewed es m n
    · rw [hold]
      intro law terms e mem
      obtain ⟨e', mem', rfl⟩ := List.mem_map.1 mem
      split
      · exact ⟨term law (by rw [hold]; exact terms), le_rfl⟩
      · exact terms e' mem'
  | tainted o g =>
    exact quiet_setHold holds (by rw [hold]; rfl) (by rw [hold]; exact id) (by rw [hold]; exact fun _ => .inl)
      (by rw [hold]; rfl) (by rw [hold]; rfl) (by rw [hold]; exact fun _ => id)
  | scrub o g =>
    exact quiet_setHold holds (by rw [hold]; rfl) (by rw [hold]; exact id) (by rw [hold]; exact fun _ => .inl)
      (by rw [hold]; rfl) (by rw [hold]; rfl) (by rw [hold]; exact fun _ => id)

theorem deed_renew (s : State) (m : Mid) : s.Deed (renewRule s m).1 :=
  deed_onLease fun k l _ _ holds => deed_unlessRefused fun accepted =>
    (quiet_renewed holds fun law terms => by
      refine le_min ?_ (law.2.2 _)
      split
      · exact grantedTerm_pos accepted terms
      · rename_i asked; exact Nat.pos_of_ne_zero asked).deed

theorem deed_release (s : State) (m : Mid) : s.Deed (releaseRule s m).1 := by
  refine deed_onLease fun k l _ _ holds => deed_unlessRefused fun accepted => ?_
  have notClosed : l.hold.closed ≠ true := by
    intro closed; simp [releaseRefusal, closed] at accepted
  have silent := quiet_dropNotice s k m
  dsimp only
  split
  · exact .pass (.single (silent.trans (quiet_endMembership ..)).calm)
  · refine .pass (.single (silent.trans (quiet_freeSlot fun l' holds' state => notClosed ?_)).calm)
    rw [lease_dropNotice, if_pos rfl, holds] at holds'
    obtain rfl := Option.some.inj holds'
    exact Hold.closed_iff.1 (.inr state)

theorem deed_downgrade (s : State) (m : Mid) : s.Deed (downgradeRule s m).1 := by
  refine deed_onLease fun k l _ _ holds => deed_unlessRefused fun accepted => ?_
  have inHeld : l.hold.mode ≠ .shared ∧ l.hold.state = .held := by
    simp only [downgradeRefusal] at accepted
    split at accepted
    · cases accepted
    · split at accepted
      · cases accepted
      · rename_i mode state; exact ⟨mode, by simpa using state⟩
  refine .pass (.single (Quiet.calm ?_))
  cases hold : l.hold with
  | held o g n c =>
    refine quiet_of_lease (touches_setLease ..) holds (fun _ => rfl) ⟨rfl, .inr (.inl rfl), ?_, ?_, fun _ => .inl⟩ ?_ ?_ ?_
    · exact fun _ => ⟨by simp, by simp, by simp⟩
    · rintro x (owner | share | frame)
      · cases owner
      · rw [shares_iff] at share
        refine .inl (.inl ?_)
        rw [hold, List.mem_singleton.1 share]
        rfl
      · cases frame
    · simp [hold, Hold.state, Hold.downgraded]
    · rw [hold]; exact fun _ => rfl
    · rw [hold]
      rintro _ terms e mem
      rw [List.mem_singleton.1 mem]
      exact terms
  | grace o g n c left => rw [hold] at inHeld; cases inHeld.2
  | tainted o g => rw [hold] at inHeld; cases inHeld.2
  | scrub o g => rw [hold] at inHeld; cases inHeld.2
  | shared es => rw [hold] at inHeld; exact absurd rfl inHeld.1

theorem otherOverlap_eq_none (h : s.otherOverlap k l = none) {j : SlotIx} {l' : Lease} (ne : j ≠ k)
    (holds : s.lease j = some l') : l'.range.overlaps l.range = false := by
  have alone := List.find?_eq_none.1 h j (mem_allSlots j)
  simpa [ne, holds] using alone

/-- An accepted UPGRADE finds the requester alone on the sharer list of a lease that no other overlaps (R94). -/
theorem upgrade_accepted {h : Handle} (accepted : upgradeRefusal s m h k l = none) :
    (∃ e es, l.hold = .shared (e :: es) ∧ ∀ x ∈ e :: es, x.master = m) ∧ s.otherOverlap k l = none := by
  simp only [upgradeRefusal] at accepted
  split at accepted
  · cases accepted
  · rename_i mode
    split at accepted
    · cases accepted
    · rename_i share
      split at accepted
      · cases accepted
      · rename_i sole
        split at accepted
        · cases accepted
        · refine ⟨?_, by assumption⟩
          obtain ⟨es, hold⟩ := shared_of_shares (m := m) (by simpa using share)
          rw [hold] at share sole ⊢
          cases es with
          | nil => exact absurd rfl share
          | cons e es => exact ⟨e, es, rfl, by simpa [Hold.sharers] using sole⟩

theorem deed_upgrade (s : State) (m : Mid) : s.Deed (upgradeRule s m).1 := by
  refine deed_onLease fun k l _ _ holds => deed_unlessRefused fun accepted => ?_
  obtain ⟨⟨e, es, hold, own⟩, alone⟩ := upgrade_accepted accepted
  have up : l.hold.upgraded = .held e.master e.tag e.term [] := by rw [hold]; rfl
  dsimp only
  rw [up]
  refine Quiet.deed (quiet_of_lease (touches_setLease ..) holds (fun _ => rfl)
    ⟨rfl, .inr (.inr fun j l₂ ne holds₂ => otherOverlap_eq_none alone ne holds₂), ?_, ?_, fun _ => .inl⟩ ?_ ?_ ?_)
  · exact fun _ => ⟨by simp, by simp⟩
  · rintro x (owner | share | frame)
    · refine .inl (.inr (.inl (shares_iff.2 ?_)))
      rw [hold, ← Option.some.inj owner]
      exact List.mem_cons_self
    · cases share
    · cases frame
  · simp [hold, Hold.state]
  · rw [hold]
    rintro ⟨-, -, distinct⟩
    cases es with
    | nil => rfl
    | cons x es =>
      have same : x.master = e.master := by rw [own x (by simp), own e (by simp)]
      simp [same] at distinct
  · rw [hold]
    exact fun _ terms => terms e List.mem_cons_self

/-! ### Lending -/

/-- An accepted LEND finds an unlent-on lease in HELD and an ATTACHED newcomer to its chain (R98). -/
theorem lend_accepted {d : Mid} {h : Handle} (accepted : lendRefusal s m d h l = none) :
    (∃ o g n c, l.hold = .held o g n c) ∧ s.attached d = true ∧ l.hold.owner? ≠ some d ∧ d ∉ l.hold.chain ∧
      l.hold.chain.length < 3 := by
  simp only [lendRefusal] at accepted
  split_ifs at accepted with mode state user attached newcomer short
  refine ⟨?_, by simpa using attached, fun is => newcomer (.inl is), fun is => newcomer (.inr is), Nat.not_le.1 short⟩
  cases hold : l.hold with
  | held o g n c => exact ⟨o, g, n, c, rfl⟩
  | shared es => rw [hold] at mode; exact absurd rfl mode
  | grace o g n c left => rw [hold] at state; exact absurd (by simp [Hold.state]) state
  | tainted o g => rw [hold] at state; exact absurd (by simp [Hold.state]) state
  | scrub o g => rw [hold] at state; exact absurd (by simp [Hold.state]) state

theorem deed_lend (s : State) (m : Mid) : s.Deed (lendRule s m).1 := by
  refine deed_onLease fun k l _ _ holds => deed_unlessRefused fun accepted => ?_
  obtain ⟨⟨o, g, n, c, hold⟩, attached, notOwner, newcomer, short⟩ := lend_accepted accepted
  refine Quiet.deed (Quiet.trans ?_ (quiet_notify ..))
  have lent : ∀ c', l.hold.withChain c' = .held o g n c' := fun c' => by rw [hold]; rfl
  have chain : l.hold.chain = c := by rw [hold]; rfl
  rw [lent, chain]
  rw [chain] at newcomer short
  refine quiet_setHold holds (by rw [hold]; rfl) ?_ ?_ (by simp [hold, Hold.state]) (by rw [hold]; rfl)
    (by rw [hold]; exact fun _ => id)
  · rw [hold]
    rintro ⟨-, distinct⟩
    refine ⟨by simpa using short, ?_⟩
    rw [← List.cons_append]
    refine List.Nodup.append distinct (List.nodup_singleton _) ?_
    have other : (s.win m).argDelegate ≠ o := fun is => notOwner (by rw [hold, is]; rfl)
    simpa using ⟨other, newcomer⟩
  · rw [hold]
    rintro x (owner | share | frame)
    · exact .inl (.inl owner)
    · cases share
    · rcases List.mem_append.1 frame with old | new
      · exact .inl (.inr (.inr old))
      · rw [List.mem_singleton.1 new]; exact .inr attached

theorem deed_giveBack (s : State) (m : Mid) : s.Deed (returnRule s m).1 :=
  deed_onLease fun _ _ _ _ holds => deed_unlessRefused fun _ =>
    ((quiet_setChain holds (List.dropLast_sublist _)).trans (quiet_notifyUser ..)).deed

theorem deed_recall (s : State) (m : Mid) : s.Deed (recallRule s m).1 :=
  deed_onLease fun _ _ _ _ holds => deed_unlessRefused fun _ =>
    ((quiet_setChain holds (List.nil_sublist _)).trans (quiet_notifyAll ..)).deed

/-! ### REVOKE and ADOPT -/

theorem deed_revoke (s : State) (m : Mid) : s.Deed (revokeRule s m).1 := by
  refine deed_onLease fun k l _ _ holds => deed_unlessRefused fun accepted => ?_
  have notScrub : l.hold.state ≠ .scrub := by
    intro state
    cases hold : l.hold with
    | scrub o g => simp [revokeRefusal, hold] at accepted
    | _ => rw [hold] at state; cases state
  split
  · exact ((quiet_taintSlot ..).trans (quiet_notifyAll ..)).deed
  · refine .pass (.single ((quiet_notifyAll ..).trans (quiet_freeSlot fun l' holds' => ?_)).calm)
    rw [(touches_notifyAll ..).lease_same, holds] at holds'
    obtain rfl := Option.some.inj holds'
    exact notScrub

theorem deed_adopt (s : State) (m : Mid) : s.Deed (adoptRule s m).1 := by
  refine deed_onLease fun k l standing _ holds => deed_unlessRefused fun accepted => ?_
  cases hold : l.hold with
  | tainted o g =>
    simp only [adoptRefusal, hold] at accepted
    split at accepted
    · cases accepted
    · rename_i room
      exact .calm (.adopt holds hold (supervisor_of_standing standing).1 (Nat.not_le.1 room) fun law =>
        ⟨law.2.2 _, le_rfl⟩)
  | _ => simp [adoptRefusal, hold] at accepted

/-! ### Notices -/

/-- An ENDED entry collected by its master leaves every WAITING one (R147). -/
theorem thins_collect (s : State) (m : Mid) : s.Thins (s.setQueue (s.queue.eraseP (ClaimEntry.endedOf m))) := by
  have sub := List.eraseP_sublist (p := ClaimEntry.endedOf m) (l := s.queue)
  have ended : ∀ e : ClaimEntry, e.endedOf m = true → e.isWaiting = false := by
    intro e is
    simp only [ClaimEntry.endedOf, Bool.and_eq_true, decide_eq_true_eq] at is
    simp only [ClaimEntry.isWaiting, is.2]
  have count : ∀ n, (s.setQueue (s.queue.eraseP (ClaimEntry.endedOf m))).waitingNow n = s.waitingNow n := by
    intro n
    simp only [waitingNow, setQueue_queue]
    rcases List.exists_or_eq_self_of_eraseP (ClaimEntry.endedOf m) s.queue with same | ⟨e, a, b, -, is, queue, erased⟩
    · rw [same]
    · rw [queue, ← queue, erased, queue]
      simp [ended e is]
  exact ⟨rfl, sub.map _, fun law e mem => (law.2.1 e (sub.subset mem)).2, fun _ => rfl, fun _ n =>
    ⟨(count n).le, by rw [count]; simp⟩⟩

/-- A finished entry collected leaves the live ones (R147). -/
theorem calm_collectScrub (s : State) :
    s.Calm (s.setScrub { s.scrub with list := s.scrub.list.eraseP ScrubEntry.finished }) := by
  have live : ∀ x ∈ s.scrub.list, x.state.live = true → x ∈ s.scrub.list.eraseP ScrubEntry.finished :=
    fun x mem live => (List.mem_eraseP_of_neg (by simp [ScrubEntry.finished, live])).2 mem
  have active : s.scrub.HasActive → ∃ x ∈ s.scrub.list.eraseP ScrubEntry.finished, x.active = true :=
    fun ⟨x, mem, active⟩ => ⟨x, live x mem (ScrubEntry.live_of_active active), active⟩
  refine .engine (fun x mem _ => .inl (List.mem_of_mem_eraseP mem)) fun core => core.setScrub ?_ ?_ ?_
  · exact
      { one := (List.eraseP_sublist.countP_le).trans core.sound.one
        breq := fun breq => active (core.sound.breq breq)
        run := fun run => active (core.sound.run run)
        flight := core.sound.flight }
  · exact fun ⟨x, mem, queued⟩ => active (core.served ⟨x, List.mem_of_mem_eraseP mem, queued⟩)
  · rcases List.exists_or_eq_self_of_eraseP ScrubEntry.finished s.scrub.list with same | ⟨e, a, b, -, is, list, erased⟩
    · rw [same]
    · have done : e.state.live = false := by simpa [ScrubEntry.finished] using is
      rw [erased, list, liveHandles_append, liveHandles_append, liveHandles_cons_finished done]

theorem deed_collect (s : State) (m : Mid) (i : Item) : s.Deed (s.collect m i) := by
  cases i with
  | orphan o => exact .calm (calm_dropOrphan s m)
  | claim e => exact .calm (.thin (thins_collect s m))
  | lease k l x => exact (quiet_dropNotice ..).deed
  | scrub e => exact .calm (calm_collectScrub s)

theorem deed_nextNotice (s : State) (m : Mid) : s.Deed (nextNoticeRule s m).1 := by
  unfold nextNoticeRule
  split
  · exact .refl s
  · split
    · exact .refl s
    · split
      · exact .refl s
      · exact deed_collect s m _

theorem deed_inspect (s : State) (m : Mid) : s.Deed (inspectRule s m).1 := by
  have same : (inspectRule s m).1 = s := by
    simp only [inspectRule]
    split_ifs <;> rfl
  rw [same]
  exact .refl s

/-! ### Pools and settings -/

/-- Settings of the time base are seen by nothing that is granted (R72). -/
theorem outer_setTime (s : State) (x : TimeBase) : s.Outer (s.setTime x) := rfl

theorem deed_setTiming (s : State) (m : Mid) : s.Deed (setTimingRule s m).1 := by
  refine deed_unlessRefused fun _ => ?_
  split
  · exact .refl s
  · dsimp only
    split
    · exact .calm (.outer (outer_setTime s _))
    · exact .afterOuter (outer_setTime s _) (quiet_setWarned _).deed

theorem deed_setFill (s : State) (m : Mid) : s.Deed (setFillRule s m).1 := by
  refine deed_unlessRefused fun _ => ?_
  split
  · exact .refl s
  · refine .calm (.engine (fun x mem _ => .inl mem) fun core => core.setScrub ?_ core.served rfl)
    exact ⟨core.sound.one, core.sound.breq, core.sound.run, core.sound.flight⟩

theorem countLeases_eq_zero_iff {f : Lease → Bool} :
    s.countLeases f = 0 ↔ ∀ k l, s.lease k = some l → f l = false := by
  rw [countLeases, List.countP_eq_zero]
  constructor
  · intro h k l holds
    simpa [holds] using h k (mem_allSlots k)
  · intro h k _
    cases holds : s.lease k with
    | none => simp
    | some l => simpa using h k l holds

theorem spansMeet_comm (b t b' t' : Nat) : spansMeet b t b' t' = spansMeet b' t' b t := by
  simp only [spansMeet, Bool.and_comm]

/-- The overlap checks of SET POOL passed, for a pool to be enabled (R12). -/
theorem overlaps_of_poolCheck {a : PoolArgs} (checks : poolCheck s a = none) (enabled : a.enabled = true) :
    s.meetsWindow a.base.toNat a.top = false ∧
      ∀ q, q ≠ a.pool → (s.pool q).enabled = true →
        spansMeet a.base.toNat a.top (s.pool q).base.toNat (s.pool q).top = false := by
  simp only [poolCheck, enabled, Bool.not_true, Bool.false_eq_true, if_false] at checks
  split_ifs at checks with _ _ _ _ _ window
  refine ⟨by simpa using window, fun q ne enabled' => ?_⟩
  rw [Option.map_eq_none_iff] at checks
  simpa [ne, enabled'] using List.find?_eq_none.1 checks q (List.mem_finRange q)

/-- What the checks of SET POOL leave of the pool law (R12). -/
theorem PoolLaw.setPool (law : s.PoolLaw) {a : PoolArgs} (checks : poolCheck s a = none) :
    (s.setPool a.pool a.record).PoolLaw := by
  have window : ∀ b t, (s.setPool a.pool a.record).meetsWindow b t = s.meetsWindow b t := fun _ _ => rfl
  intro p enabled
  rw [window, pool_setPool] at *
  by_cases here : a.pool = p
  · rw [if_pos here] at *
    obtain ⟨apart, others⟩ := overlaps_of_poolCheck checks enabled
    refine ⟨apart, fun q ne enabled' => ?_⟩
    have other : a.pool ≠ q := fun is => ne (is.symm.trans here)
    rw [pool_setPool, if_neg other] at *
    exact others q (Ne.symm other) enabled'
  · rw [if_neg here] at *
    obtain ⟨apart, others⟩ := law p enabled
    refine ⟨apart, fun q ne enabled' => ?_⟩
    rw [pool_setPool] at *
    by_cases there : a.pool = q
    · rw [if_pos there] at *
      rw [spansMeet_comm]
      exact (overlaps_of_poolCheck checks enabled').2 p (Ne.symm here) enabled
    · rw [if_neg there] at *
      exact others q ne enabled'

theorem deed_setPool (s : State) (m : Mid) : s.Deed (setPoolRule s m).1 := by
  refine deed_unlessRefused fun _ => deed_unlessRefused fun accepted => ?_
  unfold setPoolRefusal at accepted
  split at accepted
  · cases accepted
  · rename_i idle
    rw [Option.map_eq_none_iff] at accepted
    simp only [poolBusy] at idle
    split_ifs at idle with busy
    simp only [not_or, not_not] at busy
    refine .calm (.repool (fun k l holds => ?_) (fun e mem => ?_) ?_ fun law => law.setPool accepted)
    · simpa [Lease.inPool] using countLeases_eq_zero_iff.1 busy.1 k l holds
    · simpa using List.countP_eq_zero.1 busy.2 e mem
    · simp only [poolCheck] at accepted
      split_ifs at accepted with _ _ _ _ maxTerm <;> exact Nat.pos_of_ne_zero maxTerm

end Sys2Proof.Machine.State
end

section
/-! PROOF. The requests of the scrub engine are deeds, and with them every request of Table 10-2. -/

namespace Sys2Proof.Machine

/-- Activation makes no entry finished (R154). -/
theorem mem_of_finished_activated {e : ScrubEngine} {x : ScrubEntry} (mem : x ∈ e.activated.list)
    (finished : x.finished = true) : x ∈ e.list := by
  unfold ScrubEngine.activated at mem
  split at mem
  · exact mem
  · rename_i idle
    obtain ⟨older, q, younger, p, list, queued, none_queued⟩ :=
      State.split_queued (by simpa using fun h => idle (.inr h) : e.list.any ScrubEntry.isQueued = true)
    rw [list, State.activateOldest_split queued none_queued] at mem
    rw [list]
    rcases List.mem_append.1 mem with before | here
    · exact List.mem_append_left _ before
    · rcases List.mem_cons.1 here with rfl | after
      · exact absurd finished (by simp [ScrubEntry.finished, ScrubState.live])
      · exact List.mem_append_right _ (List.mem_cons_of_mem _ after)

namespace State

variable {s t u : State} {k : SlotIx} {l : Lease} {m : Mid}

theorem setScrub_setScrub (s : State) (e e' : ScrubEngine) : (s.setScrub e).setScrub e' = s.setScrub e' := rfl

/-- Activation alone (R154). -/
theorem calm_activate (s : State) : s.Calm s.activate := by
  rw [activate_eq]
  refine .engine (fun x mem finished => .inl (mem_of_finished_activated mem finished)) fun core => ?_
  obtain ⟨sound, served, same⟩ := activated_spec core.sound
  exact core.setScrub sound served same

/-- A TAINTED lease enters SCRUB, or one in SCRUB returns to TAINTED: nobody has part in it. -/
theorem descent_closed {h : Hold} (holds : s.lease k = some l) (was : l.hold.closed = true) (is : h.closed = true) :
    s.Descent (s.setLease k { l with hold := h }) ∧ (s.TermLaw → (s.setLease k { l with hold := h }).TermLaw) := by
  have closed : ∀ {h : Hold}, h.closed = true →
      h.mode = .exclusive ∧ HoldShape h ∧ (∀ n, ¬h.Involves n) ∧ h.holders = [] ∧ HoldTerms h := by
    intro h closed
    cases h with
    | tainted o g => exact ⟨rfl, trivial, fun _ => not_involves_tainted, rfl, trivial⟩
    | scrub o g =>
      refine ⟨rfl, trivial, ?_, rfl, trivial⟩
      rintro n (owner | share | frame)
      · cases owner
      · cases share
      · cases frame
    | _ => cases closed
  obtain ⟨mode, -, -, holders, -⟩ := closed was
  obtain ⟨mode', shape', part', holders', terms'⟩ := closed is
  have touched := touches_setLease s k { l with hold := h }
  refine ⟨touched.descent holds (fun l' e => ?_) (fun _ n => ?_) (fun _ => by simp [noMove]), fun law => ?_⟩
  · obtain rfl := Option.some.inj e
    exact ⟨rfl, .inl (mode'.trans mode.symm), fun _ => shape', fun n h => absurd h (part' n), fun _ => .inl⟩
  · simp [noLoss, holdersCount, holders, holders']
  · exact law.of_touches touched fun l' e => by obtain rfl := Option.some.inj e; exact terms'

theorem deed_scrub (s : State) (m : Mid) : s.Deed (scrubRule s m).1 := by
  refine deed_onLease fun k l _ named holds => deed_unlessRefused fun accepted => ?_
  obtain ⟨o, g, hold⟩ : ∃ o g, l.hold = .tainted o g := by
    cases hold : l.hold with
    | tainted o g => exact ⟨o, g, rfl⟩
    | _ => simp [scrubRefusal, hold] at accepted
  have enters : l.hold.toScrub = .scrub o g := by rw [hold]; rfl
  dsimp only
  rw [enters, named, activate_eq, setScrub_setScrub]
  obtain ⟨descent, terms⟩ := descent_closed (h := .scrub o g) holds (by rw [hold]; rfl) rfl
  refine .calm (.table (.single descent) terms (fun x mem finished => .inl ?_) fun core => ?_)
  · rcases List.mem_append.1 (mem_of_finished_activated mem finished) with old | new
    · exact old
    · rw [List.mem_singleton.1 new] at finished
      cases finished
  · refine core.enter (k := k) ?_ (fun j => ?_) (fun j => descent.gen j) rfl
    · rintro ⟨l', holds', state⟩
      rw [holds] at holds'
      obtain rfl := Option.some.inj holds'
      rw [hold] at state
      cases state
    · show (s.setLease k _).InScrub j ↔ _
      simp only [InScrub, lease_setLease]
      by_cases here : k = j
      · subst here; simp [Hold.state]
      · simp [here, Ne.symm here]

/-- Freeing a slot does not see the scrub engine. -/
theorem freeSlot_setScrub (s : State) (e : ScrubEngine) (k : SlotIx) :
    (s.setScrub e).freeSlot k = (s.freeSlot k).setScrub e := by
  simp only [freeSlot, lease_setScrub]
  cases s.lease k with
  | none => rfl
  | some l =>
    have lower : ∀ (ms : List Mid) (t : State),
        ms.foldl lowerHeld (t.setScrub e) = (ms.foldl lowerHeld t).setScrub e := by
      intro ms
      induction ms with
      | nil => intro t; rfl
      | cons m ms ih => intro t; exact ih (t.lowerHeld m)
    exact lower l.hold.holders
      ((s.moveToOrphans (s.handle k) l.notices).setSlot k
        { (s.moveToOrphans (s.handle k) l.notices).slot k with lease := none })

/-- A lease nobody has part in leaves the table. -/
theorem descent_freeSlot (holds : s.lease k = some l) :
    s.Descent (s.freeSlot k) ∧ (s.TermLaw → (s.freeSlot k).TermLaw) := by
  have freed := touches_freeSlot holds
  exact ⟨freed.descent holds (fun _ e => by cases e) (fun _ n => rfl) fun n => .inl,
    fun law => law.of_touches freed fun _ e => by cases e⟩

theorem inScrub_freeSlot (s : State) (k j : SlotIx) : (s.freeSlot k).InScrub j ↔ s.InScrub j ∧ j ≠ k := by
  simp only [InScrub, lease_freeSlot]
  by_cases here : k = j
  · subst here; simp
  · simp [here, Ne.symm here]

/-- The engine after the live entry of `h` is abandoned (R160). -/
def abandoned (s : State) (h : Handle) : ScrubEngine := (s.abandon h).scrub

theorem abandon_eq (s : State) (h : Handle) : s.abandon h = s.setScrub (s.abandoned h) := rfl

theorem sound_abandoned (sound : s.scrub.Sound) (free : s.busHeld = false) (h : Handle) : (s.abandoned h).Sound := by
  have run : s.scrub.run.isSome = false := free
  refine ⟨List.filter_sublist.countP_le.trans sound.one, fun breq => ?_, fun is => ?_, sound.flight⟩
  · simp only [abandoned, abandon, setScrub_scrub] at breq
    split at breq
    · cases breq
    · rename_i notActive
      obtain ⟨x, mem, active⟩ := sound.breq breq
      refine ⟨x, List.mem_filter.2 ⟨mem, ?_⟩, active⟩
      cases named : x.liveFor h with
      | false => rfl
      | true => exact absurd (List.any_eq_true.2 ⟨x, mem, by simp [named, active]⟩) notActive
  · rw [show (s.abandoned h).run = s.scrub.run from rfl, run] at is
    cases is

theorem liveHandles_abandoned (s : State) (h : Handle) :
    liveHandles (s.abandoned h).list = (liveHandles s.scrub.list).filter (· ≠ h) := by
  show liveHandles (s.scrub.list.filter fun e => !e.liveFor h) = _
  simp only [liveHandles, List.filter_filter, List.filter_map]
  refine congrArg (List.map ScrubEntry.handle) (List.filter_congr fun x _ => ?_)
  cases live : x.state.live <;> simp [ScrubEntry.liveFor, live]

theorem deed_clear (free : s.busHeld = false) (m : Mid) : s.Deed (clearRule s m).1 := by
  refine deed_onLease fun k l _ named holds => ?_
  split
  · exact .refl s
  · dsimp only
    rw [activate_grantPass]
    obtain ⟨descent, terms⟩ := descent_freeSlot holds
    split
    · rename_i state
      rw [named, abandon_eq, freeSlot_setScrub, activate_eq, setScrub_setScrub]
      refine .pass (.single (.table (.single descent) terms (fun x mem finished => .inl ?_) fun core => ?_))
      · exact List.mem_of_mem_filter (mem_of_finished_activated mem finished)
      · exact core.leave (e := s.abandoned (s.handle k)) (fun j => inScrub_freeSlot s k j) descent.gen
          (sound_abandoned core.sound free _) (liveHandles_abandoned ..) rfl
    · rename_i notScrub
      refine .pass (.tail (.single (quiet_freeSlot fun l' holds' => ?_).calm) (calm_activate _))
      rw [holds] at holds'
      obtain rfl := Option.some.inj holds'
      exact notScrub

theorem deed_softReset (s : State) (m : Mid) : s.Deed (softResetRule s m).1 :=
  deed_unlessRefused fun _ => .calm .softReset

/-- Every request is a deed (Table 10-2); only CLEAR could end a run with BREQ alone, and a run holds the bus. -/
theorem deed_request (r : Request) (free : s.busHeld = false) (m : Mid) : s.Deed (r.rule s m).1 := by
  match r with
  | .attach => exact deed_attach s m
  | .detach => exact deed_detach s m
  | .claim => exact deed_claim s m
  | .cancel => exact deed_cancel s m
  | .renew => exact deed_renew s m
  | .release => exact deed_release s m
  | .downgrade => exact deed_downgrade s m
  | .upgrade => exact deed_upgrade s m
  | .lend => exact deed_lend s m
  | .giveBack => exact deed_giveBack s m
  | .recall => exact deed_recall s m
  | .nextNotice => exact deed_nextNotice s m
  | .inspect => exact deed_inspect s m
  | .status => exact .refl s
  | .setPool => exact deed_setPool s m
  | .setTiming => exact deed_setTiming s m
  | .setMaster => exact deed_setMaster s m
  | .setFill => exact deed_setFill s m
  | .fence => exact deed_fence s m
  | .unfence => exact deed_unfence s m
  | .clearNote => exact deed_clearNote s m
  | .revoke => exact deed_revoke s m
  | .scrub => exact deed_scrub s m
  | .clear => exact deed_clear free m
  | .adopt => exact deed_adopt s m
  | .softReset => exact deed_softReset s m

end State

end Sys2Proof.Machine
end

section
/-! PROOF. What the bus and the clock do are deeds. -/

namespace Sys2Proof.Machine

/-! ### What a tick does to a claim-queue entry -/

@[simp] theorem ClaimEntry.claim_tick (e : ClaimEntry) : e.tick.claim = e.claim := by
  unfold ClaimEntry.tick
  split <;> rfl

/-- A WAITING entry stays so over a tick, with some wait left, unless it runs out (R56, R57). -/
theorem ClaimEntry.isWaiting_tick (e : ClaimEntry) : e.tick.isWaiting = (e.isWaiting && !e.runsOut) := by
  obtain ⟨c, status⟩ := e
  cases status with
  | ended => rfl
  | waiting n =>
    by_cases last : n ≤ 1
    · simp [ClaimEntry.tick, ClaimEntry.isWaiting, ClaimEntry.runsOut, ClaimEntry.left, last]
    · simp [ClaimEntry.tick, ClaimEntry.isWaiting, ClaimEntry.runsOut, ClaimEntry.left, last]

theorem ClaimEntry.left_tick {e : ClaimEntry} (waiting : e.tick.isWaiting = true) : 1 ≤ e.tick.left := by
  obtain ⟨c, status⟩ := e
  cases status with
  | ended => cases waiting
  | waiting n =>
    by_cases last : n ≤ 1
    · simp [ClaimEntry.tick, ClaimEntry.isWaiting, last] at waiting
    · simp only [ClaimEntry.tick, last, if_false, ClaimEntry.left]; omega

theorem ClaimEntry.isWaiting_of_runsOut {e : ClaimEntry} (out : e.runsOut = true) : e.isWaiting = true := by
  simp only [ClaimEntry.runsOut, Bool.and_eq_true] at out
  exact out.1

namespace State

variable {s t u : State} {k : SlotIx} {l : Lease} {m : Mid}

/-! ### Transactions of masters -/

theorem deed_ruleOf (code : BitVec 8) (free : s.busHeld = false) (m : Mid) : s.Deed (ruleOf code s m).1 := by
  cases found : Request.ofCode code with
  | none => simp only [ruleOf, found]; exact .refl s
  | some r => simp only [ruleOf, found]; exact deed_request r free m

/-- What surrounds a request's own rule only the window and the bus see (R167). -/
theorem deed_serveRequest {code : BitVec 8} {body : State → Mid → State × Answer} (m : Mid)
    (each : ∀ u : State, u.busHeld = false → u.Deed (body u m).1) : s.Deed (s.serveRequest m code body) := by
  cases held : s.busHeld with
  | true => rw [serveRequest_of_held s held]; exact .calm (.outer rfl)
  | false =>
    cases reset : s.inReset with
    | true => rw [serveRequest_of_reset s held reset]; exact .calm (.outer rfl)
    | false =>
      rw [serveRequest_of_served s held reset]
      exact (Deed.afterOuter (t := s.takeRequest m code) rfl (each _ held)).outer rfl

theorem deed_windowWrite (s : State) (m : Mid) (offset : BitVec 8) (data : Word) :
    s.Deed (s.windowWrite m offset data) := by
  unfold windowWrite
  split
  · exact deed_serveRequest m fun u free => deed_ruleOf _ free m
  all_goals exact .calm (.outer rfl)

theorem deed_serveWindow (s : State) (m : Mid) (offset : BitVec 8) (dir : Direction) (size : Nat) (data : Word) :
    s.Deed (s.serveWindow m offset dir size data) := by
  unfold serveWindow
  split
  · exact .calm (.outer rfl)
  · split
    · exact .calm (.outer rfl)
    · cases dir with
      | read => dsimp only; split_ifs <;> exact .calm (.outer rfl)
      | write => exact deed_windowWrite ..

/-- A refusal report counts, and fences the master whose count comes to meet its threshold (R120). -/
theorem deed_reportRefusal (s : State) (m : Mid) (n : Note) : s.Deed (s.reportRefusal m n) := by
  unfold reportRefusal
  dsimp only
  split
  · rename_i meets
    exact deed_fenceMaster ((overThreshold_countRefusal_iff s m n).1 meets).1 rfl rfl id
  · rename_i under
    rw [overThreshold_countRefusal_iff] at under
    refine .calm (.master ?_)
    exact
      { held := rfl, waiting := rfl, quota := id, orphan := .inl rfl, unattached := id, fenced := id
        threshold := fun _ sup positive met => by
          by_contra notFenced
          exact under ⟨sup, notFenced, positive, met⟩ }

theorem deed_judge (s : State) (m : Mid) (a : Word) (dir : Direction) : s.Deed (s.judge m a dir) := by
  unfold judge
  split
  · exact .calm (.outer rfl)
  · exact (deed_reportRefusal ..).outer rfl

theorem deed_transact (s : State) (m : Mid) (a : Word) (dir : Direction) (size : Nat) (data : Word) :
    s.Deed (s.transact m a dir size data) := by
  unfold transact
  split
  · exact deed_serveWindow ..
  · split_ifs
    · exact .calm (.outer rfl)
    · exact .calm (.outer rfl)
    · exact deed_judge ..

/-! ### The clock -/

theorem outer_setTicks (s : State) (x : Ticks) : s.Outer (s.setTicks x) := rfl

theorem deed_tableTick (s : State) : s.Deed s.tableTick := by
  have ticked : s.Quiet (allSlots.foldl tickSlot s) := .foldl quiet_tickSlot allSlots s
  unfold tableTick
  dsimp only
  split
  · exact .pass (.single ticked.calm)
  · exact ticked.deed

theorem deed_takeTableTick (s : State) : s.Deed s.takeTableTick := .afterOuter (outer_setTicks s _) (deed_tableTick _)

/-- Lowering waiting counts one after another. -/
theorem master_foldl_lowerWaiting (es : List ClaimEntry) (s : State) (n : Mid) :
    (es.foldl (fun t e => t.lowerWaiting e.claim.master) s).master n =
      { s.master n with waiting := (s.master n).waiting - es.countP fun e => e.claim.master = n } := by
  induction es generalizing s with
  | nil => rfl
  | cons e es ih =>
    rw [List.foldl_cons, ih, master_lowerWaiting, List.countP_cons]
    by_cases own : e.claim.master = n
    · subst own; simp [Nat.sub_sub, Nat.add_comm]
    · simp [own]

theorem foldl_lowerWaiting_frame (es : List ClaimEntry) (s : State) :
    es.foldl (fun t e => t.lowerWaiting e.claim.master) s =
      { s with masters := (es.foldl (fun t e => t.lowerWaiting e.claim.master) s).masters } := by
  induction es generalizing s with
  | nil => rfl
  | cons e es ih => rw [List.foldl_cons, ih]; rfl

/-- The queue after a tick, its masters' waiting counts lowered for the entries that end (R56, R57). -/
def queueTicked (s : State) : State :=
  (s.queue.filter ClaimEntry.runsOut).foldl (fun t e => t.lowerWaiting e.claim.master)
    (s.setQueue (s.queue.map ClaimEntry.tick))

theorem queueTick_eq (s : State) :
    s.queueTick = if s.queue.filter ClaimEntry.runsOut = [] then s.queueTicked else s.queueTicked.grantPass := rfl

theorem queueTicked_frame (s : State) :
    s.queueTicked = { s with queue := s.queue.map ClaimEntry.tick, masters := s.queueTicked.masters } :=
  foldl_lowerWaiting_frame ..

theorem master_queueTicked (s : State) (n : Mid) :
    s.queueTicked.master n =
      { s.master n with
        waiting := (s.master n).waiting - s.queue.countP fun e => e.runsOut && e.claim.master = n } := by
  rw [queueTicked, master_foldl_lowerWaiting, List.countP_filter]
  simp only [master_setQueue, Bool.and_comm]

theorem thins_queueTicked (s : State) : s.Thins s.queueTicked := by
  have queue : s.queueTicked.queue = s.queue.map ClaimEntry.tick := by rw [queueTicked_frame]
  have count : ∀ n,
      s.waitingNow n = s.queueTicked.waitingNow n + s.queue.countP fun e => e.runsOut && e.claim.master = n := by
    intro n
    simp only [waitingNow, queue, List.countP_map]
    induction s.queue with
    | nil => rfl
    | cons e es ih =>
      simp only [List.countP_cons, ih, Function.comp_apply, ClaimEntry.isWaiting_tick, ClaimEntry.claim_tick]
      by_cases out : e.runsOut = true
      · simp [out, ClaimEntry.isWaiting_of_runsOut out]; omega
      · simp [out]; omega
  refine ⟨by rw [queueTicked_frame], ?_, fun _ e mem => ?_, fun n => by rw [master_queueTicked], fun _ n => ?_⟩
  · rw [queue, List.map_map]
    exact (congrArg (fun f => (s.queue.map f).Sublist _) (funext ClaimEntry.claim_tick)).mpr (.refl _)
  · rw [queue] at mem
    obtain ⟨e', -, rfl⟩ := List.mem_map.1 mem
    exact ClaimEntry.left_tick
  · have := count n
    rw [master_queueTicked]
    exact ⟨by omega, by dsimp only; congr 1; omega⟩

theorem deed_queueTick (s : State) : s.Deed s.queueTick := by
  rw [queueTick_eq]
  split
  · exact .calm (.thin (thins_queueTicked s))
  · exact .pass (.single (.thin (thins_queueTicked s)))

theorem deed_takeQueueTick (s : State) : s.Deed s.takeQueueTick := .afterOuter (outer_setTicks s _) (deed_queueTick _)

theorem deed_idle (s : State) : s.Deed s.idle := by
  unfold idle
  split_ifs
  · exact .refl s
  · exact deed_takeTableTick s
  · exact deed_takeQueueTick s
  · unfold refclkPeriod
    split_ifs <;> exact .calm (.outer rfl)

end State

end Sys2Proof.Machine
end

section
/-! PROOF. The expiry events and the events of the scrub link are deeds; and so a step is one deed, with the transactions
that waited for a run's end behind it, or a reset. -/

namespace Sys2Proof.Machine

/-! ### An entry whose progress moves on (R155) -/

/-- The ACTIVE entry at that progress; any other as it is. -/
def ScrubEntry.progressed (n : Nat) (e : ScrubEntry) : ScrubEntry := if e.active then { e with state := .active n } else e

namespace ScrubEntry

variable {n : Nat} {e : ScrubEntry}

@[simp] theorem active_progressed : (e.progressed n).active = e.active := by
  unfold progressed
  split
  · rename_i active; exact active.symm
  · rfl

@[simp] theorem handle_progressed : (e.progressed n).handle = e.handle := by
  unfold progressed
  split <;> rfl

@[simp] theorem live_progressed : (e.progressed n).state.live = e.state.live := by
  unfold progressed
  split
  · rename_i active; exact (live_of_active active).symm
  · rfl

@[simp] theorem isQueued_progressed : (e.progressed n).isQueued = e.isQueued := by
  have same := active_progressed (n := n) (e := e)
  simp only [active] at same
  simp only [isQueued, live_progressed, same]

/-- A finished entry makes no progress. -/
theorem progressed_of_finished (finished : (e.progressed n).finished = true) : e.progressed n = e := by
  unfold progressed
  split
  · rename_i active
    simp [ScrubEntry.finished, live_of_active active] at finished
  · rfl

end ScrubEntry

theorem liveHandles_progressed (n : Nat) (es : List ScrubEntry) :
    liveHandles (es.map (ScrubEntry.progressed n)) = liveHandles es := by
  induction es with
  | nil => rfl
  | cons e es ih =>
    cases live : e.state.live with
    | true =>
      rw [List.map_cons, liveHandles_cons_live (by simpa using live), liveHandles_cons_live live, ih,
        ScrubEntry.handle_progressed]
    | false =>
      rw [List.map_cons, liveHandles_cons_finished (by simpa using live), liveHandles_cons_finished live, ih]

/-! ### A claim-queue entry on its last tick (R57) -/

/-- The entry of that master and tag, ENDED where it is on its last tick (R57). -/
def ClaimEntry.ended (m : Mid) (tag : Tag) (e : ClaimEntry) : ClaimEntry :=
  if e.expiring m tag then { e with status := .ended } else e

namespace State

variable {s t u : State} {k : SlotIx} {l : Lease} {m : Mid}

/-! ### The expiry events (R57, R76, R77, R79) -/

/-- The entry that expires is the only one of its master and tag (R44, R54). -/
theorem countP_expiring {tag : Tag} (law : s.QueueLaw) (some_expires : s.queue.any (ClaimEntry.expiring m tag) = true) :
    s.queue.countP (ClaimEntry.expiring m tag) = 1 := by
  obtain ⟨e, found⟩ := Option.isSome_iff_exists.1 (List.find?_isSome.2 (List.any_eq_true.1 some_expires))
  obtain ⟨expires, older, younger, queue, before⟩ := List.find?_eq_some_iff_append.1 found
  have distinct := law.2.2
  rw [queue, List.pairwise_append] at distinct
  have after : ∀ x ∈ younger, x.expiring m tag = false := by
    intro x mem
    simp only [ClaimEntry.expiring, Bool.and_eq_true, decide_eq_true_eq] at expires
    have apart := (List.pairwise_cons.1 distinct.2.1).1 x mem
    by_contra is
    simp only [ClaimEntry.expiring, Bool.not_eq_false, Bool.and_eq_true, decide_eq_true_eq] at is
    exact apart (expires.1.2.trans is.1.2.symm) (expires.2.trans is.2.symm)
  rw [queue, List.countP_append, List.countP_cons_of_pos expires,
    List.countP_eq_zero.2 (fun x mem => by simpa using before x mem),
    List.countP_eq_zero.2 (fun x mem => by simp [after x mem])]

theorem thins_waitLimitExpiry {tag : Tag} (some_expires : s.queue.any (ClaimEntry.expiring m tag) = true) :
    s.Thins ((s.setQueue (s.queue.map (ClaimEntry.ended m tag))).lowerWaiting m) := by
  have claim : ∀ e : ClaimEntry, (e.ended m tag).claim = e.claim := by
    intro e; unfold ClaimEntry.ended; split <;> rfl
  have waiting : ∀ e : ClaimEntry, (e.ended m tag).isWaiting = (e.isWaiting && !e.expiring m tag) := by
    intro e
    unfold ClaimEntry.ended
    split
    · rename_i expires; rw [expires]; simp [ClaimEntry.isWaiting]
    · rename_i stays; simp [stays]
  have count : ∀ n,
      s.waitingNow n =
        ((s.setQueue (s.queue.map (ClaimEntry.ended m tag))).lowerWaiting m).waitingNow n +
          s.queue.countP fun e => e.expiring m tag && e.claim.master = n := by
    intro n
    simp only [waitingNow, lowerWaiting, setMaster_queue, setQueue_queue, List.countP_map]
    induction s.queue with
    | nil => rfl
    | cons e es ih =>
      simp only [List.countP_cons, ih, Function.comp_apply, waiting, claim]
      by_cases expires : e.expiring m tag = true
      · have is : e.isWaiting = true := by
          simp only [ClaimEntry.expiring, Bool.and_eq_true] at expires
          exact ClaimEntry.isWaiting_of_runsOut expires.1.1
        simp [expires, is]; omega
      · simp [expires]; omega
  refine ⟨rfl, ?_, fun law e mem is => ?_, fun n => ?_, fun law n => ⟨by have := count n; omega, ?_⟩⟩
  · have same : (s.queue.map (ClaimEntry.ended m tag)).map ClaimEntry.claim = s.queue.map ClaimEntry.claim := by
      rw [List.map_map]; exact List.map_congr_left fun e _ => claim e
    exact same ▸ .refl _
  · obtain ⟨e', mem', rfl⟩ := List.mem_map.1 mem
    rw [waiting, Bool.and_eq_true] at is
    have stays : e'.ended m tag = e' := by
      unfold ClaimEntry.ended; rw [if_neg (by simpa using is.2)]
    rw [stays]
    exact (law.2.1 e' mem').2 is.1
  · rw [master_lowerWaiting]
    split
    · rename_i same; subst same; rfl
    · rfl
  · have now := count n
    have one := countP_expiring law some_expires
    by_cases same : m = n
    · subst same
      have own : (s.queue.countP fun e => e.expiring m tag && e.claim.master = m) = 1 := by
        rw [← one]
        refine List.countP_congr fun e _ => ?_
        simp [ClaimEntry.expiring]
        tauto
      rw [master_lowerWaiting, if_pos rfl]
      rw [own] at now
      simp only [master_setQueue]
      omega
    · have other : (s.queue.countP fun e => e.expiring m tag && e.claim.master = n) = 0 := by
        rw [List.countP_eq_zero]
        intro e _ is
        simp only [ClaimEntry.expiring, Bool.and_eq_true, decide_eq_true_eq] at is
        exact same (is.1.1.2.symm.trans is.2)
      rw [master_lowerWaiting, if_neg same]
      rw [other] at now
      simp only [master_setQueue]
      omega

theorem deed_waitLimitExpiry (s : State) (m : Mid) (tag : Tag) :
    s.Deed (if s.queue.any (ClaimEntry.expiring m tag) then
      ((s.setQueue (s.queue.map (ClaimEntry.ended m tag))).lowerWaiting m).grantPass else s) := by
  split
  · rename_i some_expires
    exact .pass (.single (.thin (thins_waitLimitExpiry some_expires)))
  · exact .refl s

/-! ### The scrub link -/

/-- The engine once its ACTIVE entry has finished in that state (R157, R158). -/
def finished (s : State) (st : ScrubState) : ScrubEngine := (s.finishActive st).scrub

theorem finishActive_eq (s : State) (st : ScrubState) : s.finishActive st = s.setScrub (s.finished st) := rfl

theorem mem_finished {st : ScrubState} {x : ScrubEntry} (mem : x ∈ (s.finished st).list) :
    x ∈ s.scrub.list ∨ s.attached s.supmid = true := by
  by_cases attached : s.attached s.supmid = true
  · exact .inr attached
  · simp only [finished, finishActive, attached] at mem
    exact .inl (List.mem_of_mem_filter mem)

/-- A finished entry no longer stands for its lease, and no other does (R152). -/
theorem finished_spec {x : ScrubEntry} {st : ScrubState} (core : s.ScrubCore) (active : s.activeEntry = some x)
    (done : st.live = false) :
    (s.finished st).Sound ∧
      liveHandles (s.finished st).list = (liveHandles s.scrub.list).filter (· ≠ x.handle) := by
  obtain ⟨older, younger, list, is, others⟩ := split_active core.sound.one active
  have lists : (s.finished st).list =
      if s.attached s.supmid then older ++ { x with state := st } :: younger else older ++ younger := by
    simp only [finished, finishActive, setScrub_scrub, list, map_active is others, filter_active is others]
  have once : (liveHandles s.scrub.list).count x.handle = 1 := by
    obtain ⟨k, inScrub, named⟩ := core.listed.named x.handle
      (mem_liveHandles.2 ⟨x, by rw [list]; simp, ScrubEntry.live_of_active is, rfl⟩)
    rw [named]
    exact core.listed.once k inScrub
  have notActive : ∀ y ∈ older ++ { x with state := st } :: younger, y.active = false := by
    intro y mem
    rcases List.mem_append.1 mem with before | here
    · exact others y (List.mem_append_left _ before)
    · rcases List.mem_cons.1 here with rfl | after
      · cases st <;> simp_all [ScrubEntry.active, ScrubState.isActive, ScrubState.live]
      · exact others y (List.mem_append_right _ after)
  refine ⟨sound_of_idle ?_ rfl rfl rfl, ?_⟩
  · rw [lists]
    split
    · exact notActive
    · exact others
  · rw [list] at once ⊢
    rw [filter_liveHandles (ScrubEntry.live_of_active is) once, lists]
    split
    · rw [liveHandles_append, liveHandles_cons_finished done, ← liveHandles_append]
    · rfl

theorem scrubbed_eq_some {h : Handle} (named : s.scrubbed h = some (k, l)) :
    h = s.handle k ∧ s.lease k = some l ∧ ∃ o g, l.hold = .scrub o g := by
  unfold scrubbed at named
  split at named
  · rename_i k' o g range notices look
    obtain ⟨eq, holds⟩ := (lookup_eq_some s).1 look
    simp only [Option.some.injEq, Prod.mk.injEq] at named
    obtain ⟨rfl, rfl⟩ := named
    exact ⟨eq, holds, _, _, rfl⟩
  · cases named

/-- The entry of a lease in SCRUB is finished and the lease leaves SCRUB by way of `t` (R157, R158). -/
theorem calm_finish {x : ScrubEntry} {st : ScrubState} (active : s.activeEntry = some x) (done : st.live = false)
    (named : s.scrubbed x.handle = some (k, l)) (descent : s.Descent t) (terms : s.TermLaw → t.TermLaw)
    (leaves : ∀ j, t.InScrub j ↔ s.InScrub j ∧ j ≠ k) : s.Calm (t.setScrub (s.finished st).activated) := by
  refine .table (.single descent) terms (fun y mem is => mem_finished (mem_of_finished_activated mem is)) fun core => ?_
  obtain ⟨sound, handles⟩ := finished_spec core active done
  have handle : x.handle = s.handle k := (scrubbed_eq_some named).1
  exact core.leave leaves descent.gen sound (handle ▸ handles) rfl

/-- Where the live entry names no lease (which the scrub law rules out) the entry alone is finished. -/
theorem calm_finishUnnamed {x : ScrubEntry} {st : ScrubState} (active : s.activeEntry = some x)
    (unnamed : s.scrubbed x.handle = none) : s.Calm (s.setScrub (s.finished st).activated) := by
  refine .engine (fun y mem is => mem_finished (mem_of_finished_activated mem is)) fun core => ?_
  obtain ⟨older, younger, list, is, -⟩ := split_active core.sound.one active
  obtain ⟨k, inScrub, named⟩ := core.listed.named x.handle
    (mem_liveHandles.2 ⟨x, by rw [list]; simp, ScrubEntry.live_of_active is, rfl⟩)
  have found := scrubbed_isSome_iff.2 ⟨k, inScrub, named⟩
  rw [unnamed] at found
  cases found

/-- The last word of a scrub completes it (R158). -/
theorem deed_completeScrub {x : ScrubEntry} (active : s.activeEntry = some x) : s.Deed (s.completeScrub x.handle) := by
  cases named : s.scrubbed x.handle with
  | none =>
    have is : s.completeScrub x.handle = (s.setScrub (s.finished .done).activated).grantPass := by
      simp only [completeScrub, named]
      rw [activate_grantPass, finishActive_eq, activate_eq]
      rfl
    rw [is]
    exact .pass (.single (calm_finishUnnamed active named))
  | some y =>
    obtain ⟨k, l⟩ := y
    have is : s.completeScrub x.handle = ((s.freeSlot k).setScrub (s.finished .done).activated).grantPass := by
      simp only [completeScrub, named]
      rw [activate_grantPass, finishActive_eq, freeSlot_setScrub, activate_eq]
      rfl
    rw [is]
    obtain ⟨-, holds, -⟩ := scrubbed_eq_some named
    obtain ⟨descent, terms⟩ := descent_freeSlot holds
    exact .pass (.single (calm_finish active rfl named descent terms (inScrub_freeSlot s k)))

/-- A failed word taints the lease again (R157). -/
theorem deed_failWord (s : State) : s.Deed s.failWord := by
  unfold failWord
  split
  · rename_i x r w active run flight
    cases named : s.scrubbed x.handle with
    | none =>
      dsimp only
      rw [finishActive_eq, activate_eq]
      exact .calm (calm_finishUnnamed active named)
    | some y =>
      obtain ⟨k, l⟩ := y
      obtain ⟨-, holds, o, g, hold⟩ := scrubbed_eq_some named
      obtain ⟨descent, terms⟩ := descent_closed (h := .tainted o g) holds (by rw [hold]; rfl) rfl
      have leaves : ∀ j, (s.setLease k { l with hold := .tainted o g }).InScrub j ↔ s.InScrub j ∧ j ≠ k := by
        intro j
        simp only [InScrub, lease_setLease]
        by_cases here : k = j
        · subst here; simp [Hold.state]
        · simp [here, Ne.symm here]
      have finish := calm_finish (st := .failed w.address) active rfl named descent terms leaves
      simp only [hold]
      rw [finishActive_eq, activate_eq]
      exact .calm finish
  · exact .refl s

theorem hasActive_of_activeEntry {x : ScrubEntry} (active : s.activeEntry = some x) : s.scrub.HasActive :=
  activeEntry_isSome_iff.1 (by rw [active]; rfl)

/-- The ACTIVE entry moves on; BREQ, the run and the word in flight change with it (R155). -/
theorem calm_progress {x : ScrubEntry} {e : ScrubEngine} {n : Nat} (active : s.activeEntry = some x)
    (list : e.list = s.scrub.list.map (ScrubEntry.progressed n)) (flight : e.flight.isSome = e.run.isSome) :
    s.Calm (s.setScrub e) := by
  have hasActive : e.HasActive := by
    obtain ⟨y, mem, is⟩ := hasActive_of_activeEntry active
    exact ⟨y.progressed n, by rw [list]; exact List.mem_map_of_mem mem, by simpa using is⟩
  refine .engine (fun y mem is => ?_) fun core => core.setScrub ?_ (fun _ => hasActive) ?_
  · rw [list] at mem
    obtain ⟨y', mem', rfl⟩ := List.mem_map.1 mem
    rw [ScrubEntry.progressed_of_finished is]
    exact .inl mem'
  · refine ⟨?_, fun _ => hasActive, fun _ => hasActive, flight⟩
    rw [list, List.countP_map]
    exact (congrArg (fun p => List.countP p s.scrub.list) (funext fun _ => ScrubEntry.active_progressed)).trans_le
      core.sound.one
  · rw [list, liveHandles_progressed]

theorem deed_ackWord (s : State) : s.Deed s.ackWord := by
  unfold ackWord
  split
  · rename_i x r w active run flight
    dsimp only
    split
    · exact deed_completeScrub active
    · split
      · exact .calm (calm_progress active rfl rfl)
      · exact .calm (calm_progress active rfl rfl)
  · exact .refl s

theorem deed_raiseGrant (s : State) : s.Deed s.raiseGrant := by
  have plain : s.Calm (s.setScrub { s.scrub with bgnt := true }) :=
    .engine (fun x mem _ => .inl mem) fun core =>
      core.setScrub ⟨core.sound.one, core.sound.breq, core.sound.run, core.sound.flight⟩ core.served rfl
  unfold raiseGrant
  split
  · rename_i x active
    split
    · exact .calm (.engine (fun x mem _ => .inl mem) fun core =>
        core.setScrub ⟨core.sound.one, core.sound.breq, fun _ => hasActive_of_activeEntry active, rfl⟩ core.served rfl)
    · exact .calm plain
  · exact .calm plain

theorem deed_lowerGrant (s : State) : s.Deed s.lowerGrant := by
  unfold lowerGrant
  split
  · rename_i r w run flight
    exact .calm (.engine (fun x mem _ => .inl mem) fun core => core.setScrub
      ⟨core.sound.one, core.sound.breq, fun _ => core.sound.run (by rw [run]; rfl), by
        show s.scrub.flight.isSome = true
        rw [flight]; rfl⟩ core.served rfl)
  · rename_i r run flight
    exact .calm (.engine (fun x mem _ => .inl mem) fun core => core.setScrub
      ⟨core.sound.one, fun _ => core.sound.run (by rw [run]; rfl), fun is => Bool.noConfusion is, rfl⟩ core.served rfl)
  · rename_i run
    split
    · rename_i active
      exact .calm (.engine (fun x mem _ => .inl mem) fun core => core.setScrub
        ⟨core.sound.one, fun _ => activeEntry_isSome_iff.1 active, core.sound.run, core.sound.flight⟩ core.served rfl)
    · exact .calm (.engine (fun x mem _ => .inl mem) fun core =>
        core.setScrub ⟨core.sound.one, core.sound.breq, core.sound.run, core.sound.flight⟩ core.served rfl)

end State

end Sys2Proof.Machine
end

section
/-! PROOF. A step, said once: a deed of its own event, with the transactions that waited for a run's end behind it, or a
power-on or pin reset. -/

namespace Sys2Proof.Machine.State

variable {s t u : State}

/-! ### Deeds one after another -/

/-- `n` deeds. -/
inductive Deeds : Nat → State → State → Prop
  | zero (s : State) : Deeds 0 s s
  | more {n : Nat} {s t u : State} (first : s.Deed t) (rest : Deeds n t u) : Deeds (n + 1) s u

theorem Deeds.keeps {P : State → Prop} (calm : ∀ s t, Calm s t → P s → P t) (new : ∀ s t, NewGrant s t → P s → P t)
    (pass : ∀ s t, PassGrant s t → P s → P t) {n : Nat} (h : Deeds n s t) (start : P s) : P t := by
  induction h with
  | zero => exact start
  | more first _ ih => exact ih (first.keeps calm new pass start)

/-- Each transaction that waits is a deed, and none of them begins a run (R156, R162). -/
theorem deeds_takeHeld (free : s.busHeld = false) :
    Deeds s.held.length s s.takeHeld ∧ s.takeHeld.held = [] ∧ s.takeHeld.busHeld = false := by
  generalize waiting : s.held = xs
  induction xs generalizing s with
  | nil => rw [takeHeld_of_nil waiting]; exact ⟨.zero s, waiting, free⟩
  | cons x xs ih =>
    have taken := takeOldest_of_cons waiting
    have keeps : (s.setHeld xs).Keeps s.takeOldest := taken ▸ keeps_transact (s := s.setHeld xs) free ..
    have deed : s.Deed s.takeOldest := by
      rw [taken]
      exact .afterOuter (t := s.setHeld xs) rfl (deed_transact ..)
    have free' : s.takeOldest.busHeld = false := by
      simp only [busHeld, Option.isSome_eq_false_iff, Option.isNone_iff_eq_none] at free ⊢
      exact keeps.2 free
    obtain ⟨rest, held, idle⟩ := ih free' keeps.1
    rw [takeHeld_of_cons waiting keeps.1]
    exact ⟨.more deed rest, held, idle⟩

/-! ### Transactions wait during a run and no longer (R156) -/

/-- Where a transaction waits only during a run in `s`, it does so in `t`. -/
def Waits (s t : State) : Prop :=
  (s.held ≠ [] → s.scrub.run.isSome = true) → t.held ≠ [] → t.scrub.run.isSome = true

theorem waits_of_run (run : t.busHeld = true) : s.Waits t := fun _ _ => run

theorem waits_of_same (held : t.held = s.held) (run : t.scrub.run = s.scrub.run) : s.Waits t := by
  unfold Waits
  rw [held, run]
  exact id

theorem waits_of_free (free : s.busHeld = false) (held : t.held = s.held) : s.Waits t := by
  intro law some_held
  rw [held] at some_held
  have run := law some_held
  rw [show s.scrub.run.isSome = false from free] at run
  cases run

theorem waits_serveRequest (s : State) (m : Mid) (code : BitVec 8) {body : State → Mid → State × Answer}
    (b : ∀ s m, Keeps s (body s m).1) : s.Waits (s.serveRequest m code body) := by
  cases held : s.busHeld with
  | true => rw [serveRequest_of_held s held]; exact waits_of_run held
  | false => exact waits_of_free held (keeps_serveRequest m code held b).1

theorem waits_serveWindow (s : State) (m : Mid) (offset : BitVec 8) (dir : Direction) (size : Nat) (data : Word) :
    s.Waits (s.serveWindow m offset dir size data) := by
  cases held : s.busHeld with
  | true => simp only [serveWindow, held, if_true]; exact waits_of_run held
  | false => exact waits_of_free held (keeps_serveWindow held ..).1

theorem waits_transact (s : State) (m : Mid) (a : Word) (dir : Direction) (size : Nat) (data : Word) :
    s.Waits (s.transact m a dir size data) := by
  cases held : s.busHeld with
  | true =>
    unfold transact
    split
    · exact waits_serveWindow s m _ dir size data
    · rw [if_pos held]; exact waits_of_run held
  | false => exact waits_of_free held (keeps_transact held ..).1

/-! ### What the events leave waiting -/

theorem waits_of_calm_frame {slots : Vector Slot 32} {queue : List ClaimEntry} {masters : Vector Master 8}
    (frame : t = { s with slots := slots, queue := queue, masters := masters }) : s.Waits t :=
  waits_of_same (by rw [frame]) (by rw [frame])

theorem waits_grantPass (h : s.Waits t) : s.Waits t.grantPass := by
  have held : t.grantPass.held = t.held := by rw [grantPass_frame]
  have run : t.grantPass.scrub = t.scrub := by rw [grantPass_frame]
  unfold Waits
  rw [held, run]
  exact h

theorem Quiet.waits (h : s.Quiet t) : s.Waits t := by
  have frame := frame_of_descents h.steps
  exact waits_of_same (by rw [frame]) (by rw [frame])

theorem waits_tableTick (s : State) : s.Waits s.tableTick := by
  have ticked : s.Quiet (allSlots.foldl tickSlot s) := .foldl quiet_tickSlot allSlots s
  unfold tableTick
  dsimp only
  split
  · exact waits_grantPass ticked.waits
  · exact ticked.waits

theorem waits_queueTick (s : State) : s.Waits s.queueTick := by
  have ticked : s.Waits s.queueTicked := by rw [queueTicked_frame]; exact id
  rw [queueTick_eq]
  split
  · exact ticked
  · exact waits_grantPass ticked

theorem waits_takeTableTick (s : State) : s.Waits s.takeTableTick := by
  have same : s.Waits (s.setTicks { s.ticks with tableDue := s.ticks.tableDue - 1 }) := id
  exact fun law => waits_tableTick _ (same law)

theorem waits_takeQueueTick (s : State) : s.Waits s.takeQueueTick := by
  have same : s.Waits (s.setTicks { s.ticks with queueDue := s.ticks.queueDue - 1 }) := id
  exact fun law => waits_queueTick _ (same law)

theorem waits_idle (s : State) : s.Waits s.idle := by
  unfold idle
  split_ifs
  · exact id
  · exact waits_takeTableTick s
  · exact waits_takeQueueTick s
  · unfold refclkPeriod
    split_ifs <;> exact id

theorem held_completeScrub (s : State) (h : Handle) : (s.completeScrub h).held = s.held := by
  unfold completeScrub
  rw [(keeps_activate _).1, (keeps_grantPass _).1]
  split
  · rfl
  · exact (keeps_freeSlot ..).1

theorem held_ackWord (s : State) : s.ackWord.held = s.held := by
  unfold ackWord
  split
  · dsimp only
    split_ifs
    · exact held_completeScrub ..
    · rfl
    · rfl
  · rfl

theorem held_failWord (s : State) : s.failWord.held = s.held := by
  unfold failWord
  split
  · dsimp only
    rw [(keeps_activate _).1]
    split
    · split <;> rfl
    · rfl
  · rfl

theorem held_lowerGrant (s : State) : s.lowerGrant.held = s.held := by
  unfold lowerGrant
  split
  · rfl
  · rfl
  · split_ifs <;> rfl

theorem waits_raiseGrant (s : State) : s.Waits s.raiseGrant := by
  unfold raiseGrant
  split
  · split_ifs
    · exact waits_of_run rfl
    · exact id
  · exact id

/-! ### The step -/

/-- What a step, or the command it takes, can do outside a power-on or pin reset. -/
inductive Runs (s : State) : State → Prop
  /-- An event that ends no run. -/
  | event {t : State} (deed : s.Deed t) (waits : s.Waits t) : Runs s t
  /-- An event that ends a run: the transactions that waited for that are taken behind it. -/
  | runEnds {u : State} (deed : s.Deed u) (held : u.held = s.held) (run : s.busHeld = true) (free : u.busHeld = false) :
      Runs s u.takeHeld

/-- What every change and every grant keeps, an event keeps. -/
theorem Runs.keeps {P : State → Prop} (calm : ∀ s t, Calm s t → P s → P t) (new : ∀ s t, NewGrant s t → P s → P t)
    (pass : ∀ s t, PassGrant s t → P s → P t) (h : s.Runs t) (start : P s) : P t := by
  cases h with
  | event deed _ => exact deed.keeps calm new pass start
  | runEnds deed _ _ free => exact (deeds_takeHeld free).1.keeps calm new pass (deed.keeps calm new pass start)

theorem runs_letOn (deed : s.Deed t) (held : t.held = s.held) : s.Runs (s.letOn t) := by
  cases run : s.busHeld with
  | false => rw [letOn_of_free run]; exact .event deed (waits_of_free run held)
  | true =>
    cases free : t.busHeld with
    | true => rw [letOn_of_held free]; exact .event deed (waits_of_run free)
    | false => rw [letOn_of_end run free]; exact .runEnds deed held run free

theorem runs_request (s : State) (m : Mid) (r : Request) : s.Runs (s.serveRequest m r.code r.rule) :=
  .event (deed_serveRequest m fun _ free => deed_request r free m) (waits_serveRequest s m _ fun s m => r.keeps_rule s m)

/-- Every command but the two resets. -/
theorem runs_exec {c : Instr} (e : exec c s = .next t)
    (notReset : ∀ sup seg, c ≠ .powerOnReset sup seg ∧ c ≠ .pinReset sup seg) : s.Runs t := by
  cases c <;> (injection e with e; subst e)
  case tick =>
    split
    · exact .event (.refl s) id
    · exact .event (.calm (.outer rfl)) id
  case leaseTableTick => exact .event (deed_takeTableTick s) (waits_takeTableTick s)
  case claimQueueTick => exact .event (deed_takeQueueTick s) (waits_takeQueueTick s)
  case termExpiry k =>
    split
    · exact .event (quiet_endTerm s k).deed (quiet_endTerm s k).waits
    · exact .event (.refl s) id
  case graceEnd k =>
    split
    · exact .event (quiet_endGrace s k).deed (quiet_endGrace s k).waits
    · exact .event (.refl s) id
  case sharerExpiry k m =>
    split
    · exact .event (.pass (.single (quiet_endSharerTerm s k m).calm)) (waits_grantPass (quiet_endSharerTerm s k m).waits)
    · exact .event (.refl s) id
  case waitLimitExpiry m tag =>
    refine .event (deed_waitLimitExpiry s m tag) ?_
    split
    · exact waits_grantPass id
    · exact id
  case runStart =>
    split
    · exact .event (.refl s) id
    · exact .event (deed_raiseGrant s) (waits_raiseGrant s)
  case scrubWordAck => exact runs_letOn (deed_ackWord s) (held_ackWord s)
  case scrubWriteError => exact runs_letOn (deed_failWord s) (held_failWord s)
  case bgntDeasserted => exact runs_letOn (deed_lowerGrant s) (held_lowerGrant s)
  case powerOnReset sup seg => exact absurd rfl (notReset sup seg).1
  case pinReset sup seg => exact absurd rfl (notReset sup seg).2
  case endOfReset => exact .event (.calm (.outer rfl)) id
  case unknownRequest m code =>
    exact .event (deed_serveRequest m fun _ free => deed_ruleOf code free m)
      (waits_serveRequest s m code fun s m => keeps_ruleOf code s m)
  case windowWrite => exact .event (deed_serveWindow ..) (waits_serveWindow s _ _ _ _ _)
  case malformedWindowAccess => exact .event (deed_serveWindow ..) (waits_serveWindow s _ _ _ _ _)
  case access => exact .event (deed_transact ..) (waits_transact s _ _ _ _ _)
  case attach m => exact runs_request s m .attach
  case detach m => exact runs_request s m .detach
  case claim m => exact runs_request s m .claim
  case cancel m => exact runs_request s m .cancel
  case renew m => exact runs_request s m .renew
  case release m => exact runs_request s m .release
  case downgrade m => exact runs_request s m .downgrade
  case upgrade m => exact runs_request s m .upgrade
  case lend m => exact runs_request s m .lend
  case giveBack m => exact runs_request s m .giveBack
  case nextNotice m => exact runs_request s m .nextNotice
  case inspect m => exact runs_request s m .inspect
  case status m => exact runs_request s m .status
  case setPool m => exact runs_request s m .setPool
  case setTiming m => exact runs_request s m .setTiming
  case setMaster m => exact runs_request s m .setMaster
  case setFill m => exact runs_request s m .setFill
  case fence m => exact runs_request s m .fence
  case unfence m => exact runs_request s m .unfence
  case clearNote m => exact runs_request s m .clearNote
  case revoke m => exact runs_request s m .revoke
  case scrub m => exact runs_request s m .scrub
  case clear m => exact runs_request s m .clear
  case adopt m => exact runs_request s m .adopt
  case softReset m => exact runs_request s m .softReset
  -- RECALL, left for last: its name is also a keyword
  next m => exact runs_request s m .recall

/-- A step but for a power-on or pin reset: it takes the command it runs from those that wait. -/
theorem runs_step (e : step s = .next t)
    (notReset : ∀ sup seg, s.pending.head? ≠ some (.powerOnReset sup seg) ∧ s.pending.head? ≠ some (.pinReset sup seg)) :
    ∃ rest, (s.setPending rest).Runs t := by
  unfold step at e
  split at e
  · injection e with e; subst e
    exact ⟨s.pending, .event (deed_idle s) (waits_idle s)⟩
  · rename_i c rest pending
    refine ⟨rest, runs_exec e fun sup seg => ⟨fun is => ?_, fun is => ?_⟩⟩
    · exact (notReset sup seg).1 (by rw [pending, is]; rfl)
    · exact (notReset sup seg).2 (by rw [pending, is]; rfl)

/-- A step: a run of deeds, or a reset. -/
theorem step_cases (e : step s = .next t) :
    (∃ rest, (s.setPending rest).Runs t) ∨
      ∃ (u : State) (cause : ResetCause) (sup : Mid) (seg : BitVec 4), t = u.resetAs cause sup seg := by
  by_cases notReset : ∀ sup seg,
      s.pending.head? ≠ some (.powerOnReset sup seg) ∧ s.pending.head? ≠ some (.pinReset sup seg)
  · exact .inl (runs_step e notReset)
  · simp only [not_forall, not_and_or, not_not] at notReset
    obtain ⟨sup, seg, front⟩ := notReset
    unfold step at e
    split at e
    · rename_i pending; rw [pending] at front; simp at front
    · rename_i c rest pending
      simp only [pending, List.head?_cons, Option.some.injEq] at front
      rcases front with rfl | rfl
      · injection e with e; exact .inr ⟨_, _, _, _, e.symm⟩
      · injection e with e; exact .inr ⟨_, _, _, _, e.symm⟩

/-- What every change and every grant keeps, and a reset establishes, a step keeps. -/
theorem step_keeps {P : State → Prop} (calm : ∀ s t, Calm s t → P s → P t) (new : ∀ s t, NewGrant s t → P s → P t)
    (pass : ∀ s t, PassGrant s t → P s → P t) (reset : ∀ s cause supmid wseg, P (resetAs s cause supmid wseg))
    (pending : ∀ s rest, P s → P (setPending s rest)) (e : step s = .next t) (start : P s) : P t := by
  rcases step_cases e with ⟨rest, runs⟩ | ⟨u, cause, sup, seg, rfl⟩
  · exact runs.keeps calm new pass (pending s rest start)
  · exact reset ..

end Sys2Proof.Machine.State
end

section
/-! PROOF. Generations count grants (O55), and the coverage law (O56). -/

namespace Sys2Proof.Machine.State

variable {s t u : State} {k : SlotIx}

/-! ### Runs of changes -/

/-- What every change of the lease table keeps, a run of them keeps. -/
theorem keeps_of_descents {P : State → Prop} (descent : ∀ s t, Descent s t → P s → P t)
    (h : Relation.ReflTransGen Descent s t) (start : P s) : P t := by
  induction h with
  | refl => exact start
  | tail _ last ih => exact descent _ _ last ih

/-- A fence is a run of changes of the lease table, with changes of the fenced master's record between them. -/
theorem fence_keeps {P : State → Prop} {m : Mid} {x : Master} (descent : ∀ s t, Descent s t → P s → P t)
    (master : ∀ s (m : Mid) (x : Master), P s → P (s.setMaster m x))
    (strip : ∀ s (m : Mid) (st : MasterState), P s → P (s.strip m st)) (start : P s) :
    P ((s.setMaster m x).fenceClean m) := by
  refine strip _ _ _ (keeps_of_descents descent (quiet_fenceCuts _ m).steps (master _ _ _ ?_))
  exact keeps_of_descents descent (quiet_withoutNotices _ m).steps (master _ _ _ start)

/-! ### Generations (R19, R20) -/

/-- Slot `k` keeps its generation, and a FREE one stays FREE. -/
def NotGranted (k : SlotIx) (s t : State) : Prop :=
  (t.slot k).gen = (s.slot k).gen ∧ (s.lease k = none → t.lease k = none)

theorem NotGranted.refl (k : SlotIx) (s : State) : NotGranted k s s := ⟨rfl, id⟩

theorem NotGranted.trans (h : NotGranted k s t) (g : NotGranted k t u) : NotGranted k s u :=
  ⟨g.1.trans h.1, g.2 ∘ h.2⟩

theorem NotGranted.of_slot (h : t.slot k = s.slot k) : NotGranted k s t := by
  unfold NotGranted lease
  rw [h]
  exact ⟨rfl, id⟩

theorem Descent.notGranted (h : s.Descent t) (k : SlotIx) : NotGranted k s t := by
  refine ⟨h.gen k, fun free => ?_⟩
  cases holds : t.lease k with
  | none => rfl
  | some l' =>
    obtain ⟨l, was, -⟩ := h.lease k l' holds
    rw [free] at was
    cases was

theorem slot_softReset (s : State) (k : SlotIx) : s.softReset.slot k = (s.slot k).softReset := by
  simp [softReset, slot]

theorem Slot.gen_softReset (x : Slot) : x.softReset.gen = x.gen := by
  unfold Slot.softReset
  split
  · rfl
  · split <;> rfl

theorem Calm.notGranted (h : s.Calm t) (k : SlotIx) : NotGranted k s t := by
  have descents : ∀ {s t : State}, Relation.ReflTransGen Descent s t → NotGranted k s t := fun {s t} run =>
    keeps_of_descents (P := NotGranted k s) (fun _ _ step before => before.trans (step.notGranted k)) run (.refl k s)
  cases h with
  | outer outer => rw [outer]; exact .of_slot rfl
  | table steps => exact (descents steps).trans (.of_slot rfl)
  | thin thins => rw [thins.frame]; exact .of_slot rfl
  | enqueue | master | strip | repool => exact .of_slot rfl
  | @adopt m k' l o g n holds =>
    refine ⟨by simp, fun free => ?_⟩
    by_cases here : k' = k
    · subst here; rw [free] at holds; cases holds
    · simp [here, free]
  | fence =>
    exact fence_keeps (P := NotGranted k s) (fun _ _ step before => before.trans (step.notGranted k))
      (fun _ _ _ before => before.trans (.of_slot rfl)) (fun _ _ _ before => before.trans (.of_slot rfl)) (.refl k s)
  | softReset =>
    refine ⟨by rw [slot_softReset, Slot.gen_softReset], fun free => ?_⟩
    have empty : (s.slot k).lease = none := free
    simp only [lease, slot_softReset, Slot.softReset, empty]

/-- Slot `k` is not granted, or takes the next generation once and holds a lease. -/
def GrantedOnce (k : SlotIx) (s t : State) : Prop :=
  NotGranted k s t ∨ (t.slot k).gen = (s.slot k).gen + 1 ∧ t.lease k ≠ none

theorem Grants.grantedOnce {c : Claim} {j : SlotIx} (h : t.Grants c j u) (before : GrantedOnce k s t) :
    GrantedOnce k s u := by
  by_cases here : j = k
  · subst here
    rcases h.placed with ⟨l, es, ns, -, holds, -, -, slot, -⟩ | ⟨free, -, ns, slot, -⟩
    · have gen : (u.slot j).gen = (t.slot j).gen := by rw [slot]
      have kept : u.lease j ≠ none := by simp only [lease, slot]; simp
      rcases before with ⟨same, stays⟩ | ⟨next, -⟩
      · refine .inl ⟨gen.trans same, fun free => ?_⟩
        rw [stays free] at holds
        cases holds
      · exact .inr ⟨gen.trans next, kept⟩
    · have kept : u.lease j ≠ none := by simp only [lease, slot]; simp
      rcases before with ⟨same, -⟩ | ⟨-, some_lease⟩
      · exact .inr ⟨by rw [slot, same], kept⟩
      · exact absurd free some_lease
  · have same := h.others k here
    unfold GrantedOnce NotGranted lease at *
    rw [same]
    exact before

theorem PassGrant.grants (h : s.PassGrant t) : ∃ e k, e ∈ s.queue ∧ s.Grants e.claim k t := by
  obtain ⟨queue, place⟩ := h
  rename_i older rest e p
  obtain ⟨-, -, grantable⟩ := passPlace_eq_some place
  obtain ⟨unblocked, placed, others⟩ := grants_grantInPass grantable
  exact ⟨e, p.slot, by rw [queue]; simp, unblocked, placed, others⟩

theorem NewGrant.grants (h : s.NewGrant t) : ∃ c k, s.Admits c ∧ s.Grants c k t := by
  obtain ⟨admits, -, grantable⟩ := h
  exact ⟨_, _, admits, grants_grantAt grantable⟩

/-- One event grants a slot at most once. -/
theorem Deed.grantedOnce (h : s.Deed t) (k : SlotIx) : GrantedOnce k s t := by
  obtain ⟨a, b, calms, grows, outer⟩ := h
  have first : GrantedOnce k s a := .inl <| keeps_of_calms (P := NotGranted k s)
    (fun _ _ step before => before.trans (step.notGranted k)) calms (.refl k s)
  have second : GrantedOnce k s b := by
    rcases grows with rfl | rfl | granted
    · exact first
    · exact grantPass_induction (P := GrantedOnce k s)
        (fun _ _ step before => by obtain ⟨_, _, -, grants⟩ := step.grants; exact grants.grantedOnce before) first
    · obtain ⟨_, _, -, grants⟩ := granted.grants
      exact grants.grantedOnce first
  have same : t.slot k = b.slot k := by rw [outer]; rfl
  unfold GrantedOnce NotGranted lease at *
  rw [same]
  exact second

/-- So `n` events advance a generation at most `n` times, and at least once where a FREE slot comes to hold a lease. -/
theorem Deeds.gen {n : Nat} (h : Deeds n s t) (k : SlotIx) :
    ∃ i, i ≤ n ∧ (t.slot k).gen = (s.slot k).gen + BitVec.ofNat 8 i ∧ (s.lease k = none → t.lease k ≠ none → 1 ≤ i) := by
  induction h with
  | zero s => exact ⟨0, le_rfl, by simp, fun free kept => absurd free kept⟩
  | @more n s u t first rest ih =>
    obtain ⟨i, few, gen, came⟩ := ih
    rcases first.grantedOnce k with ⟨same, stays⟩ | ⟨next, -⟩
    · exact ⟨i, by omega, by rw [gen, same], fun free kept => came (stays free) kept⟩
    · refine ⟨i + 1, by omega, ?_, fun _ _ => by omega⟩
      rw [gen, next, BitVec.ofNat_add, BitVec.add_assoc, BitVec.add_comm (BitVec.ofNat 8 i)]; rfl

end Sys2Proof.Machine.State

namespace Sys2Proof.Proofs

open Sys2Proof.Machine

/-- Settles O55: each event is one deed, which grants a slot at most once; the transactions that waited for a run's end
are a deed each. -/
theorem generationsCountGrants : Obligations.GenerationsCountGrants := by
  intro s t e notReset k
  obtain ⟨rest, runs⟩ := State.runs_step e notReset
  cases runs with
  | event deed =>
    refine ⟨fun _ => deed.grantedOnce k, ?_⟩
    obtain ⟨i, few, gen, came⟩ := (State.Deeds.more deed (.zero t)).gen k
    exact ⟨i, by omega, gen, came⟩
  | @runEnds u deed held run free =>
    obtain ⟨deeds, none_left, idle⟩ := State.deeds_takeHeld free
    refine ⟨?_, ?_⟩
    · rintro (nothing | noRun | goesOn)
      · rw [State.takeHeld_of_nil (held.trans nothing)]
        exact deed.grantedOnce k
      · simp [State.busHeld, noRun] at run
      · simp only [State.busHeld, Option.isSome_eq_false_iff, Option.isNone_iff_eq_none] at idle
        exact absurd idle goesOn
    · obtain ⟨i, few, gen, came⟩ := (State.Deeds.more deed deeds).gen k
      exact ⟨i, by rw [held] at few; exact few, gen, came⟩

end Sys2Proof.Proofs
end

section
/-! PROOF. The coverage law (O56). -/

namespace Sys2Proof.Machine

theorem Range.overlaps_comm (r q : Range) : r.overlaps q = q.overlaps r := by
  simp only [Range.overlaps, eq_comm (a := r.pool), max_comm r.first, min_comm (r.first + r.count)]

namespace State

variable {s t u : State} {k : SlotIx}

/-- No lease is new, none changes its range, and one that becomes EXCLUSIVE overlaps no other. -/
def LeasesKept (s t : State) : Prop :=
  ∀ k l', t.lease k = some l' → ∃ l, s.lease k = some l ∧ l'.range = l.range ∧
    (l'.hold.mode = l.hold.mode ∨ l'.hold.mode = .shared ∨
      ∀ j l₂, j ≠ k → s.lease j = some l₂ → l₂.range.overlaps l.range = false)

theorem leasesKept_of_lease (h : t.lease = s.lease) : s.LeasesKept t := by
  intro k l holds
  rw [h] at holds
  exact ⟨l, holds, rfl, .inl rfl⟩

theorem CoverageLaw.of_kept (law : s.CoverageLaw) (kept : s.LeasesKept t) : t.CoverageLaw := by
  intro i j l' holds m' holds' ne overlap
  obtain ⟨l, was, range, mode⟩ := kept i l' holds
  obtain ⟨m, was', range', mode'⟩ := kept j m' holds'
  rw [range, range'] at overlap ⊢
  obtain ⟨shared, shared', apart⟩ := law i j l was m was' ne overlap
  refine ⟨?_, ?_, apart⟩
  · rcases mode with same | is | alone
    · exact same.trans shared
    · exact is
    · rw [Range.overlaps_comm, alone j m (Ne.symm ne) was'] at overlap
      cases overlap
  · rcases mode' with same | is | alone
    · exact same.trans shared'
    · exact is
    · rw [alone i l ne was] at overlap
      cases overlap

theorem Descent.leasesKept (h : s.Descent t) : s.LeasesKept t := by
  intro k l' holds
  obtain ⟨l, was, descends⟩ := h.lease k l' holds
  exact ⟨l, was, descends.range, descends.mode⟩

theorem Slot.lease_softReset {x : Slot} {l' : Lease} (h : x.softReset.lease = some l') :
    ∃ l, x.lease = some l ∧ l'.range = l.range ∧ l'.hold.mode = l.hold.mode ∧
      (∃ o g, l'.hold = .tainted o g) ∧ l'.notices = NoticeSet.empty := by
  unfold Slot.softReset at h
  cases holds : x.lease with
  | none => simp only [holds] at h; cases h
  | some l =>
    simp only [holds] at h
    cases hold : l.hold <;> simp only [hold] at h
    case shared => cases h
    all_goals
      obtain rfl := Option.some.inj h
      exact ⟨l, rfl, rfl, by rw [hold]; rfl, ⟨_, _, rfl⟩, rfl⟩

theorem lease_softReset {l' : Lease} (h : s.softReset.lease k = some l') :
    ∃ l, s.lease k = some l ∧ l'.range = l.range ∧ l'.hold.mode = l.hold.mode ∧
      (∃ o g, l'.hold = .tainted o g) ∧ l'.notices = NoticeSet.empty := by
  rw [lease, slot_softReset] at h
  exact Slot.lease_softReset h

theorem Calm.coverage (h : s.Calm t) (law : s.CoverageLaw) : t.CoverageLaw := by
  have descent : ∀ s t, Descent s t → s.CoverageLaw → t.CoverageLaw := fun _ _ step law => law.of_kept step.leasesKept
  cases h with
  | outer outer => rw [outer]; exact law.of_kept (leasesKept_of_lease rfl)
  | table steps => exact (keeps_of_descents descent steps law).of_kept (leasesKept_of_lease rfl)
  | thin thins => rw [thins.frame]; exact law.of_kept (leasesKept_of_lease rfl)
  | enqueue | master | strip | repool => exact law.of_kept (leasesKept_of_lease rfl)
  | @adopt m k' l o g n holds hold =>
    refine law.of_kept fun k l' holds' => ?_
    rw [lease_raiseHeld, lease_setLease] at holds'
    split at holds'
    · rename_i here
      subst here
      obtain rfl := Option.some.inj holds'
      exact ⟨l, holds, rfl, .inl (by rw [hold]; rfl)⟩
    · exact ⟨l', holds', rfl, .inl rfl⟩
  | fence =>
    exact fence_keeps (P := CoverageLaw) descent (fun _ _ _ law => law.of_kept (leasesKept_of_lease rfl))
      (fun _ _ _ law => law.of_kept (leasesKept_of_lease rfl)) law
  | softReset =>
    refine law.of_kept fun k l' holds => ?_
    obtain ⟨l, was, range, mode, -⟩ := lease_softReset holds
    exact ⟨l, was, range, .inl mode⟩

/-- A grant joins a SHARED lease of exactly its range, or brings a new lease that those it overlaps share (R47). -/
theorem Grants.coverage {c : Claim} (h : s.Grants c k t) (law : s.CoverageLaw) : t.CoverageLaw := by
  have came := fun {j : SlotIx} {l : Lease} => h.came (j := j) (l := l)
  have fresh : s.lease k = none → c.mode = .shared → ∀ j l, s.lease j = some l → l.hold.mode = .shared → l.range ≠ c.range := by
    rcases h.placed with ⟨l, -, -, -, holds, -⟩ | ⟨-, apart, -⟩
    · intro free; rw [free] at holds; cases holds
    · exact fun _ => apart
  intro i j l' holds m' holds' ne overlap
  rcases came holds with ⟨l, was, range, mode⟩ | ⟨rfl, free, range, mode⟩ <;>
    rcases came holds' with ⟨m, was', range', mode'⟩ | ⟨rfl, free', range', mode'⟩
  · rw [range, range'] at overlap ⊢
    rw [mode, mode']
    exact law i j l was m was' ne overlap
  · rw [range, range'] at overlap ⊢
    obtain ⟨shared, shared'⟩ := h.unblocked i l was overlap
    rw [mode, mode']
    exact ⟨shared', shared, fresh free' shared i l was shared'⟩
  · rw [range, range'] at overlap ⊢
    rw [Range.overlaps_comm] at overlap
    obtain ⟨shared, shared'⟩ := h.unblocked j m was' overlap
    rw [mode, mode']
    exact ⟨shared, shared', Ne.symm (fresh free shared j m was' shared')⟩
  · exact absurd rfl ne

theorem coverage_resetAs (s : State) (cause : ResetCause) (sup : Mid) (seg : BitVec 4) :
    (s.resetAs cause sup seg).CoverageLaw := by
  intro i j l holds
  simp [resetAs, State.reset, lease, slot, Slot.reset] at holds

end State

end Sys2Proof.Machine

namespace Sys2Proof.Proofs

open Sys2Proof.Machine

/-- Settles O56: what takes from the lease table or changes a lease keeps the law, and a grant is unblocked. -/
theorem coverageKept : Obligations.CoverageKept := by
  intro s t law e
  refine State.step_keeps (P := State.CoverageLaw) (fun _ _ h => h.coverage) (fun _ _ h law => ?_) (fun _ _ h law => ?_)
    State.coverage_resetAs (fun _ _ h => h) e law
  · obtain ⟨_, _, -, grants⟩ := h.grants
    exact grants.coverage law
  · obtain ⟨_, _, -, grants⟩ := h.grants
    exact grants.coverage law

end Sys2Proof.Proofs
end

section
/-! PROOF. The pool, range and term laws (O59). -/

namespace Sys2Proof.Machine.State

variable {s t u : State} {k : SlotIx}

/-! ### Ranges and pools -/

/-- No range is new: every lease and every claim has the range it had, in the pools as they were. -/
structure Narrows (s t : State) : Prop where
  leases : ∀ k l', t.lease k = some l' → ∃ l, s.lease k = some l ∧ l'.range = l.range
  claims : (t.queue.map ClaimEntry.claim).Sublist (s.queue.map ClaimEntry.claim)
  pools : t.pools = s.pools
  wseg : t.wseg = s.wseg

theorem Narrows.refl (s : State) : s.Narrows s := ⟨fun _ l holds => ⟨l, holds, rfl⟩, .refl _, rfl, rfl⟩

theorem Narrows.trans (h : s.Narrows t) (g : t.Narrows u) : s.Narrows u := by
  refine ⟨fun k l' holds => ?_, g.claims.trans h.claims, g.pools.trans h.pools, g.wseg.trans h.wseg⟩
  obtain ⟨l, was, range⟩ := g.leases k l' holds
  obtain ⟨l₀, was₀, range₀⟩ := h.leases k l was
  exact ⟨l₀, was₀, range.trans range₀⟩

theorem narrows_of_same (lease : t.lease = s.lease) (queue : t.queue = s.queue) (pools : t.pools = s.pools)
    (wseg : t.wseg = s.wseg) : s.Narrows t := by
  refine ⟨fun k l holds => ⟨l, ?_, rfl⟩, by rw [queue], pools, wseg⟩
  rwa [lease] at holds

theorem Descent.narrows (h : s.Descent t) : s.Narrows t := by
  refine ⟨fun k l' holds => ?_, by rw [h.frame], by rw [h.frame], by rw [h.frame]⟩
  obtain ⟨l, was, descends⟩ := h.lease k l' holds
  exact ⟨l, was, descends.range⟩

theorem narrows_strip (s : State) (m : Mid) (st : MasterState) : s.Narrows (s.strip m st) :=
  ⟨fun _ l holds => ⟨l, holds, rfl⟩, List.filter_sublist.map _, rfl, rfl⟩

theorem narrows_setMaster (s : State) (m : Mid) (x : Master) : s.Narrows (s.setMaster m x) :=
  narrows_of_same rfl rfl rfl rfl

theorem queue_softReset (s : State) : s.softReset.queue = [] := rfl

theorem pools_softReset (s : State) : s.softReset.pools = s.pools := by
  unfold softReset
  rfl

theorem wseg_softReset (s : State) : s.softReset.wseg = s.wseg := by
  unfold softReset
  rfl

/-- A change that neither takes a claim in nor replaces a pool makes no range new. -/
theorem Calm.narrows (h : s.Calm t) :
    s.Narrows t ∨
      (∃ c wait, s.Admits c ∧ 1 ≤ wait ∧
        t = (s.setQueue (s.queue ++ [{ claim := c, status := .waiting wait }])).raiseWaiting c.master) ∨
      ∃ p x, (∀ k l, s.lease k = some l → l.range.pool ≠ p) ∧ (∀ e ∈ s.queue, e.claim.range.pool ≠ p) ∧
        1 ≤ x.maxTerm ∧ (s.PoolLaw → (s.setPool p x).PoolLaw) ∧ t = s.setPool p x := by
  have descent : ∀ {s} t u, Descent t u → Narrows s t → Narrows s u := fun _ _ step before => before.trans step.narrows
  cases h with
  | outer outer => exact .inl (by rw [outer]; exact narrows_of_same rfl rfl rfl rfl)
  | table steps =>
    exact .inl ((keeps_of_descents (P := Narrows s) descent steps (.refl s)).trans (narrows_of_same rfl rfl rfl rfl))
  | thin thins =>
    have lease : t.lease = s.lease := by rw [thins.frame]; rfl
    exact .inl ⟨fun k l holds => ⟨l, by rwa [lease] at holds, rfl⟩, thins.claims, by rw [thins.frame], by rw [thins.frame]⟩
  | enqueue admits waits => exact .inr (.inl ⟨_, _, admits, waits, rfl⟩)
  | @adopt m k' l o g n holds hold =>
    refine .inl ⟨fun k l' holds' => ?_, .refl _, rfl, rfl⟩
    rw [lease_raiseHeld, lease_setLease] at holds'
    split at holds'
    · rename_i here
      subst here
      obtain rfl := Option.some.inj holds'
      exact ⟨l, holds, rfl⟩
    · exact ⟨l', holds', rfl⟩
  | master => exact .inl (narrows_of_same rfl rfl rfl rfl)
  | strip => exact .inl (narrows_strip ..)
  | fence =>
    exact .inl <| fence_keeps (P := Narrows s) descent (fun u m x before => before.trans (narrows_setMaster u m x))
      (fun u m st before => before.trans (narrows_strip u m st)) (.refl s)
  | repool leases entries maxTerm pools => exact .inr (.inr ⟨_, _, leases, entries, maxTerm, pools, rfl⟩)
  | softReset =>
    refine .inl ⟨fun k l' holds => ?_, by rw [queue_softReset]; exact List.nil_sublist _, pools_softReset s, wseg_softReset s⟩
    obtain ⟨l, was, range, -⟩ := lease_softReset holds
    exact ⟨l, was, range⟩

/-- What a grant at submission leaves of the other records. -/
theorem NewGrant.frame (h : s.NewGrant t) : t.queue = s.queue ∧ t.pools = s.pools ∧ t.wseg = s.wseg := by
  obtain ⟨-, -, -⟩ := h
  exact ⟨by rw [grantAt_frame], by rw [grantAt_frame], by rw [grantAt_frame]⟩

/-- What a grant in a pass leaves of the other records. -/
theorem PassGrant.frame (h : s.PassGrant t) : t.queue.Sublist s.queue ∧ t.pools = s.pools ∧ t.wseg = s.wseg := by
  obtain ⟨queue, -⟩ := h
  refine ⟨?_, by rw [grantInPass_frame]; rfl, by rw [grantInPass_frame]; rfl⟩
  rw [queue]
  exact List.Sublist.append_left (List.sublist_cons_self ..) _

theorem poolLaw_of_same (pools : t.pools = s.pools) (wseg : t.wseg = s.wseg) (law : s.PoolLaw) : t.PoolLaw := by
  have pool : t.pool = s.pool := by funext p; simp only [pool, pools]
  have window : t.meetsWindow = s.meetsWindow := by funext b e; simp only [meetsWindow, windowBase, wseg]
  intro p
  rw [pool, window]
  exact law p

theorem Calm.poolLaw (h : s.Calm t) (law : s.PoolLaw) : t.PoolLaw := by
  rcases h.narrows with narrows | ⟨c, wait, -, -, rfl⟩ | ⟨p, x, -, -, -, pools, rfl⟩
  · exact poolLaw_of_same narrows.pools narrows.wseg law
  · exact poolLaw_of_same rfl rfl law
  · exact pools law

theorem poolLaw_resetAs (s : State) (cause : ResetCause) (sup : Mid) (seg : BitVec 4) :
    (s.resetAs cause sup seg).PoolLaw := by
  intro p enabled
  simp [resetAs, State.reset, pool, Pool.reset] at enabled

theorem inEnabledPool_of_same {r : Range} (pools : t.pools = s.pools) (h : s.InEnabledPool r) : t.InEnabledPool r := by
  have pool : t.pool = s.pool := by funext p; simp only [pool, pools]
  unfold InEnabledPool
  rw [pool]
  exact h

theorem RangeLaw.of_narrows (h : s.Narrows t) (law : s.RangeLaw) : t.RangeLaw := by
  refine ⟨fun k l' holds => ?_, fun e mem => ?_⟩
  · obtain ⟨l, was, range⟩ := h.leases k l' holds
    rw [range]
    exact inEnabledPool_of_same h.pools (law.1 k l was)
  · obtain ⟨e', mem', claim⟩ := List.mem_map.1 (h.claims.subset (List.mem_map_of_mem mem))
    rw [← claim]
    exact inEnabledPool_of_same h.pools (law.2 e' mem')

theorem Calm.rangeLaw (h : s.Calm t) (law : s.RangeLaw) : t.RangeLaw := by
  rcases h.narrows with narrows | ⟨c, wait, admits, -, rfl⟩ | ⟨p, x, leases, entries, -, -, rfl⟩
  · exact law.of_narrows narrows
  · refine ⟨law.1, fun e mem => ?_⟩
    rcases List.mem_append.1 mem with old | new
    · exact law.2 e old
    · rw [List.mem_singleton.1 new]; exact admits.range
  · have elsewhere : ∀ r : Range, r.pool ≠ p → s.InEnabledPool r → (s.setPool p x).InEnabledPool r := by
      intro r other inside
      unfold InEnabledPool
      rw [pool_setPool, if_neg (Ne.symm other)]
      exact inside
    exact ⟨fun k l holds => elsewhere _ (leases k l holds) (law.1 k l holds),
      fun e mem => elsewhere _ (entries e mem) (law.2 e mem)⟩

theorem Grants.rangeLaw {c : Claim} (h : s.Grants c k t) (queue : t.queue.Sublist s.queue) (pools : t.pools = s.pools)
    (range : s.InEnabledPool c.range) (law : s.RangeLaw) : t.RangeLaw := by
  refine ⟨fun j l' holds => inEnabledPool_of_same pools ?_, fun e mem =>
    inEnabledPool_of_same pools (law.2 e (queue.subset mem))⟩
  rcases h.came holds with ⟨l, was, same, -⟩ | ⟨-, -, is, -⟩
  · rw [same]; exact law.1 j l was
  · rw [is]; exact range

theorem rangeLaw_resetAs (s : State) (cause : ResetCause) (sup : Mid) (seg : BitVec 4) :
    (s.resetAs cause sup seg).RangeLaw := by
  refine ⟨fun k l holds => ?_, fun e mem => ?_⟩
  · simp [resetAs, State.reset, lease, slot, Slot.reset] at holds
  · cases mem

/-! ### Terms -/

theorem termLaw_of_same (lease : t.lease = s.lease) (queue : t.queue.Sublist s.queue) (pools : t.pools = s.pools)
    (law : s.TermLaw) : t.TermLaw := by
  have pool : t.pool = s.pool := by funext p; simp only [pool, pools]
  refine ⟨fun k l holds => law.1 k l (by rwa [lease] at holds), fun e mem => law.2.1 e (queue.subset mem), fun p => ?_⟩
  rw [pool]
  exact law.2.2 p

theorem termLaw_strip (s : State) (m : Mid) (st : MasterState) (law : s.TermLaw) : (s.strip m st).TermLaw :=
  termLaw_of_same (s := s) rfl List.filter_sublist rfl law

theorem Calm.termLaw (h : s.Calm t) (law : s.TermLaw) : t.TermLaw := by
  cases h with
  | outer outer => rw [outer]; exact termLaw_of_same (s := s) rfl (.refl _) rfl law
  | table steps terms => exact terms law
  | thin thins =>
    have lease : t.lease = s.lease := by rw [thins.frame]; rfl
    have pool : t.pool = s.pool := by rw [thins.frame]; rfl
    refine ⟨fun k l holds => law.1 k l (by rwa [lease] at holds), fun e mem => ⟨?_, thins.waits law e mem⟩, fun p => ?_⟩
    · obtain ⟨e', mem', claim⟩ := List.mem_map.1 (thins.claims.subset (List.mem_map_of_mem mem))
      rw [← claim]
      exact (law.2.1 e' mem').1
    · rw [pool]; exact law.2.2 p
  | @enqueue c wait admits waits =>
    refine ⟨law.1, fun e mem => ?_, law.2.2⟩
    rcases List.mem_append.1 mem with old | new
    · exact law.2.1 e old
    · rw [List.mem_singleton.1 new]; exact ⟨admits.term law, fun _ => waits⟩
  | @adopt m k' l o g n holds hold attached room term =>
    refine ⟨fun k l' holds' => ?_, law.2.1, law.2.2⟩
    rw [lease_raiseHeld, lease_setLease] at holds'
    split at holds'
    · obtain rfl := Option.some.inj holds'
      exact term law
    · exact law.1 k l' holds'
  | master => exact law
  | strip => exact termLaw_strip _ _ _ law
  | @fence m x =>
    have start : (s.setMaster m x).TermLaw := law
    have silent := (quiet_withoutNotices (s.setMaster m x) m).terms start
    have fenced : ((s.setMaster m x).fenceStart m).TermLaw :=
      termLaw_of_same (s := (s.setMaster m x).mapSlots (slotWithoutNotice m)) rfl (.refl _) rfl silent
    exact termLaw_strip _ _ _ ((quiet_fenceCuts _ m).terms fenced)
  | @repool p x leases entries maxTerm =>
    refine ⟨law.1, law.2.1, fun q => ?_⟩
    rw [pool_setPool]
    split
    · exact maxTerm
    · exact law.2.2 q
  | softReset =>
    have pool : s.softReset.pool = s.pool := by funext p; simp only [pool, pools_softReset]
    refine ⟨fun k l' holds => ?_, fun e mem => ?_, by rw [pool]; exact law.2.2⟩
    swap
    · rw [queue_softReset] at mem; cases mem
    obtain ⟨l, was, -, -, ⟨o, g, hold⟩, -⟩ := lease_softReset holds
    rw [hold]
    trivial

theorem termRuns_claim {c : Claim} (term : 1 ≤ c.term) : TermRuns c.sharer.term := ⟨term, le_rfl⟩

theorem Grants.termLaw {c : Claim} (h : s.Grants c k t) (queue : t.queue.Sublist s.queue) (pools : t.pools = s.pools)
    (term : 1 ≤ c.term) (law : s.TermLaw) : t.TermLaw := by
  have pool : t.pool = s.pool := by funext p; simp only [pool, pools]
  refine ⟨fun j l' holds => ?_, fun e mem => law.2.1 e (queue.subset mem), fun p => by rw [pool]; exact law.2.2 p⟩
  by_cases here : k = j
  · subst here
    rcases h.placed with ⟨l, es, ns, -, was, hold, -, slot, -⟩ | ⟨-, -, ns, slot, -⟩
    · simp only [lease, slot, Option.mem_def, Option.some.injEq] at holds
      subst holds
      have terms := law.1 k l was
      rw [hold] at terms
      intro e mem
      rcases List.mem_append.1 mem with old | new
      · exact terms e old
      · rw [List.mem_singleton.1 new]; exact termRuns_claim term
    · simp only [lease, slot, Option.mem_def, Option.some.injEq] at holds
      subst holds
      cases mode : c.mode with
      | exclusive => simp only [Claim.newLease, mode]; exact termRuns_claim term
      | shared =>
        simp only [Claim.newLease, mode]
        intro e mem
        rw [List.mem_singleton.1 mem]
        exact termRuns_claim term
  · rw [lease, h.others j here] at holds
    exact law.1 j l' holds

theorem termLaw_resetAs (s : State) (cause : ResetCause) (sup : Mid) (seg : BitVec 4) :
    (s.resetAs cause sup seg).TermLaw := by
  refine ⟨fun k l holds => ?_, fun e mem => (by cases mem), fun p => ?_⟩
  · simp [resetAs, State.reset, lease, slot, Slot.reset] at holds
  · simp [resetAs, State.reset, pool, Pool.reset]

end Sys2Proof.Machine.State

namespace Sys2Proof.Proofs

open Sys2Proof.Machine

/-- Settles O59, law by law over the changes a step can consist of. -/
theorem poolsRangesTermsKept : Obligations.PoolsRangesTermsKept := by
  intro s t e
  refine ⟨?_, ?_, ?_⟩
  · exact State.step_keeps (P := State.PoolLaw) (fun _ _ h => h.poolLaw)
      (fun _ _ h => State.poolLaw_of_same h.frame.2.1 h.frame.2.2)
      (fun _ _ h => State.poolLaw_of_same h.frame.2.1 h.frame.2.2) State.poolLaw_resetAs (fun _ _ h => h) e
  · refine State.step_keeps (P := State.RangeLaw) (fun _ _ h => h.rangeLaw) (fun _ _ h law => ?_) (fun _ _ h law => ?_)
      State.rangeLaw_resetAs (fun _ _ h => h) e
    · obtain ⟨_, _, admits, grants⟩ := h.grants
      obtain ⟨queue, pools, -⟩ := h.frame
      exact grants.rangeLaw (queue ▸ .refl _) pools admits.range law
    · obtain ⟨x, _, mem, grants⟩ := h.grants
      obtain ⟨queue, pools, -⟩ := h.frame
      exact grants.rangeLaw queue pools (law.2 x mem) law
  · refine State.step_keeps (P := State.TermLaw) (fun _ _ h => h.termLaw) (fun _ _ h law => ?_) (fun _ _ h law => ?_)
      State.termLaw_resetAs (fun _ _ h => h) e
    · obtain ⟨_, _, admits, grants⟩ := h.grants
      obtain ⟨queue, pools, -⟩ := h.frame
      exact grants.termLaw (queue ▸ .refl _) pools (admits.term law) law
    · obtain ⟨x, _, mem, grants⟩ := h.grants
      obtain ⟨queue, pools, -⟩ := h.frame
      exact grants.termLaw queue pools (law.2.1 x mem).1 law

end Sys2Proof.Proofs
end

section
/-! PROOF. The shape, queue and quota laws (O57). -/

namespace Sys2Proof.Machine.State

variable {s t u : State} {k : SlotIx} {m : Mid}

/-- The shape, queue and quota laws together: each is needed to keep the others. -/
structure Counts (s : State) : Prop where
  shape : s.ShapeLaw
  queue : s.QueueLaw
  quota : s.QuotaLaw

/-! ### The queue law, by the claims in the queue -/

theorem entriesOf_eq (s : State) (m : Mid) :
    s.entriesOf m = (s.queue.map ClaimEntry.claim).countP fun c => c.master = m := by
  rw [List.countP_map]; rfl

theorem QueueLaw.of_claims (claims : (t.queue.map ClaimEntry.claim).Sublist (s.queue.map ClaimEntry.claim))
    (law : s.QueueLaw) : t.QueueLaw := by
  obtain ⟨short, few, distinct⟩ := law
  refine ⟨?_, fun m => ?_, ?_⟩
  · have shorter := claims.length_le
    simp only [List.length_map] at shorter
    exact shorter.trans short
  · rw [entriesOf_eq]
    exact claims.countP_le.trans (entriesOf_eq s m ▸ few m)
  · have pairs : ∀ u : State, (u.queue.Pairwise fun e f => e.claim.master = f.claim.master → e.claim.tag ≠ f.claim.tag) ↔
        (u.queue.map ClaimEntry.claim).Pairwise fun c d => c.master = d.master → c.tag ≠ d.tag := fun u => by
      rw [List.pairwise_map]
    rw [pairs] at distinct ⊢
    exact distinct.sublist claims

theorem ShapeLaw.of_claims (claims : (t.queue.map ClaimEntry.claim).Sublist (s.queue.map ClaimEntry.claim))
    (leases : ∀ k : SlotIx, ∀ l ∈ t.lease k, HoldShape l.hold ∧ 0 < l.range.count) (law : s.ShapeLaw) : t.ShapeLaw := by
  refine ⟨leases, fun e mem => ?_⟩
  obtain ⟨e', mem', claim⟩ := List.mem_map.1 (claims.subset (List.mem_map_of_mem mem))
  rw [← claim]
  exact law.2 e' mem'

/-! ### Change by change -/

theorem Counts.of_same (counts : s.Counts) (lease : t.lease = s.lease) (queue : t.queue = s.queue)
    (master : t.master = s.master) : t.Counts := by
  have held : t.heldNow = s.heldNow := by funext n; simp only [heldNow, lease]
  have waiting : t.waitingNow = s.waitingNow := by funext n; simp only [waitingNow, queue]
  refine ⟨?_, counts.queue.of_claims (by rw [queue]), fun n => ?_⟩
  · exact counts.shape.of_claims (by rw [queue]) fun k l holds => counts.shape.1 k l (by rwa [lease] at holds)
  · rw [held, waiting, master]; exact counts.quota n

/-- A master's record changes, its counts staying within its quota. -/
theorem Counts.setMaster {x : Master} (counts : s.Counts) (held : x.held = (s.master m).held)
    (waiting : x.waiting = (s.master m).waiting)
    (quota : (s.master m).held + (s.master m).waiting ≤ (s.master m).quota →
      (s.master m).held + (s.master m).waiting ≤ x.quota) : (s.setMaster m x).Counts := by
  refine ⟨counts.shape, counts.queue, fun n => ?_⟩
  have now : (s.setMaster m x).heldNow n = s.heldNow n := rfl
  have now' : (s.setMaster m x).waitingNow n = s.waitingNow n := rfl
  obtain ⟨is, is', fits⟩ := counts.quota n
  rw [now, now', master_setMaster]
  split
  · rename_i here
    subst here
    exact ⟨held.trans is, waiting.trans is', by rw [held, waiting]; exact quota fits⟩
  · exact ⟨is, is', fits⟩

theorem Descent.counts (h : s.Descent t) (counts : s.Counts) : t.Counts := by
  have queue : t.queue = s.queue := by rw [h.frame]
  have waiting : t.waitingNow = s.waitingNow := by funext n; simp only [waitingNow, queue]
  refine ⟨counts.shape.of_claims (by rw [queue]) fun k l' holds => ?_, counts.queue.of_claims (by rw [queue]), fun n => ?_⟩
  · obtain ⟨l, was, descends⟩ := h.lease k l' holds
    obtain ⟨shape, granules⟩ := counts.shape.1 k l was
    exact ⟨descends.shape shape, by rw [descends.range]; exact granules⟩
  · obtain ⟨fewer, held⟩ := h.held (fun k l was => (counts.shape.1 k l was).1) n
    obtain ⟨is, is', fits⟩ := counts.quota n
    have record := h.master n
    have waits : (t.master n).waiting = (s.master n).waiting := by rw [record]
    have quota : (t.master n).quota = (s.master n).quota := by rw [record]
    rw [waiting]
    refine ⟨?_, by rw [waits]; exact is', ?_⟩
    · omega
    · omega

theorem Thins.counts (h : s.Thins t) (counts : s.Counts) : t.Counts := by
  have lease : t.lease = s.lease := by rw [h.frame]; rfl
  have now : t.heldNow = s.heldNow := by funext n; simp only [heldNow, lease]
  refine ⟨?_, counts.queue.of_claims h.claims, fun n => ?_⟩
  · exact counts.shape.of_claims h.claims fun k l holds => counts.shape.1 k l (by rwa [lease] at holds)
  · obtain ⟨is, is', fits⟩ := counts.quota n
    obtain ⟨fewer, waiting⟩ := h.waiting counts.queue n
    have held : (t.master n).held = (s.master n).held := by rw [h.master n]
    have quota : (t.master n).quota = (s.master n).quota := by rw [h.master n]
    rw [now]
    refine ⟨held.trans is, ?_, ?_⟩
    · omega
    · omega

/-- A master that has no part in a lease has no held count (R128). -/
theorem heldNow_of_clear (clear : ∀ k l, s.lease k = some l → ¬l.hold.Involves m) : s.heldNow m = 0 := by
  rw [heldNow_eq]
  refine List.sum_eq_zero fun x mem => ?_
  obtain ⟨k, -, rfl⟩ := List.mem_map.1 mem
  cases holds : s.lease k with
  | none => rfl
  | some l =>
    have part := clear k l holds
    refine List.count_eq_zero.2 fun mem => part ?_
    cases hold : l.hold with
    | held o g n c => rw [hold] at mem; exact .inl (by rw [List.mem_singleton.1 mem]; rfl)
    | grace o g n c left => rw [hold] at mem; exact .inl (by rw [List.mem_singleton.1 mem]; rfl)
    | shared es => rw [hold] at mem; exact .inr (.inl (shares_iff.2 mem))
    | tainted o g => rw [hold] at mem; cases mem
    | scrub o g => rw [hold] at mem; cases mem

theorem Counts.strip {st : MasterState} (counts : s.Counts) (clear : s.ClearOf m) : (s.strip m st).Counts := by
  have now : (s.strip m st).heldNow = s.heldNow := rfl
  have claims : ((s.strip m st).queue.map ClaimEntry.claim).Sublist (s.queue.map ClaimEntry.claim) :=
    List.filter_sublist.map _
  refine ⟨counts.shape.of_claims claims counts.shape.1, counts.queue.of_claims claims, fun n => ?_⟩
  obtain ⟨is, is', fits⟩ := counts.quota n
  rw [now, master_strip]
  by_cases here : n = m
  · subst here
    rw [if_pos rfl]
    refine ⟨(heldNow_of_clear clear.part).symm, ?_, Nat.zero_le _⟩
    symm
    rw [waitingNow, queue_strip, List.countP_eq_zero]
    intro e mem
    simpa using fun _ => (of_decide_eq_true (List.mem_filter.1 mem).2 : e.claim.master ≠ n)
  · rw [if_neg here]
    refine ⟨is, is'.trans ?_, fits⟩
    simp only [waitingNow, queue_strip, List.countP_filter]
    refine List.countP_congr fun e _ => ?_
    simp only [Bool.and_eq_true, decide_eq_true_eq]
    exact ⟨fun ⟨waits, own⟩ => ⟨⟨waits, own⟩, own ▸ here⟩, fun ⟨both, _⟩ => both⟩

theorem waitingNow_append (q : List ClaimEntry) (e : ClaimEntry) (n : Mid) :
    ((q ++ [e]).countP fun x => x.isWaiting && x.claim.master = n) =
      (q.countP fun x => x.isWaiting && x.claim.master = n) + if e.isWaiting && e.claim.master = n then 1 else 0 := by
  rw [List.countP_append, List.countP_cons, List.countP_nil, Nat.zero_add]

theorem Counts.enqueue {c : Claim} {wait : Nat} (counts : s.Counts) (admits : s.Admits c) (few : s.entriesOf c.master < 4)
    (short : s.queue.length < 16) (tags : ∀ e ∈ s.queue, e.claim.master = c.master → e.claim.tag ≠ c.tag) :
    ((s.setQueue (s.queue ++ [{ claim := c, status := .waiting wait }])).raiseWaiting c.master).Counts := by
  have room := admits.room
  refine ⟨⟨counts.shape.1, fun e mem => ?_⟩, ⟨?_, fun n => ?_, ?_⟩, fun n => ?_⟩
  · rcases List.mem_append.1 mem with old | new
    · exact counts.shape.2 e old
    · rw [List.mem_singleton.1 new]; exact admits.granules
  · show (s.queue ++ [_]).length ≤ 16
    simp only [List.length_append, List.length_singleton]
    exact short
  · show (s.queue ++ [_]).countP _ ≤ 4
    rw [List.countP_append, List.countP_cons, List.countP_nil, Nat.zero_add]
    have own := counts.queue.2.1 n
    unfold entriesOf at own few
    split
    · rename_i same
      obtain rfl : c.master = n := by simpa using same
      exact few
    · exact own
  · show (s.queue ++ [_]).Pairwise _
    rw [List.pairwise_append]
    refine ⟨counts.queue.2.2, List.pairwise_singleton _ _, fun e mem f mem' => ?_⟩
    rw [List.mem_singleton.1 mem']
    exact tags e mem
  · obtain ⟨is, is', fits⟩ := counts.quota n
    have now : ((s.setQueue (s.queue ++ [{ claim := c, status := .waiting wait }])).raiseWaiting c.master).heldNow n =
        s.heldNow n := rfl
    have waits : ((s.setQueue (s.queue ++ [{ claim := c, status := .waiting wait }])).raiseWaiting c.master).waitingNow n =
        s.waitingNow n + if c.master = n then 1 else 0 := by
      refine (waitingNow_append ..).trans ?_
      simp [ClaimEntry.isWaiting, waitingNow]
    rw [now, waits, master_raiseWaiting]
    by_cases here : c.master = n
    · subst here
      simp only [master_setQueue, if_true]
      exact ⟨is, by omega, by omega⟩
    · simp only [here, if_false, master_setQueue]
      exact ⟨is, is', fits⟩

theorem Counts.adopt {l : Lease} {o : Mid} {g : Tag} {n : Term} (counts : s.Counts) (holds : s.lease k = some l)
    (hold : l.hold = .tainted o g) (room : (s.master m).held + (s.master m).waiting < (s.master m).quota) :
    ((s.setLease k { l with hold := .held m g n [] }).raiseHeld m).Counts := by
  refine ⟨⟨fun j l' holds' => ?_, counts.shape.2⟩, counts.queue, fun x => ?_⟩
  · rw [lease_raiseHeld, lease_setLease] at holds'
    split at holds'
    · obtain rfl := Option.some.inj holds'
      exact ⟨⟨by simp, by simp⟩, (counts.shape.1 k l holds).2⟩
    · exact counts.shape.1 j l' holds'
  · obtain ⟨is, is', fits⟩ := counts.quota x
    have others : ∀ j, k ≠ j → ((s.setLease k { l with hold := .held m g n [] }).raiseHeld m).lease j = s.lease j :=
      fun j ne => by rw [lease_raiseHeld, lease_setLease, if_neg ne]
    have count := heldNow_of_one others x
    rw [lease_raiseHeld, lease_setLease, if_pos rfl, holds] at count
    have before : holdersCount (some l) x = 0 := by simp [holdersCount, hold, Hold.holders]
    have after : holdersCount (some { l with hold := .held m g n [] }) x = if m = x then 1 else 0 := by
      simp [holdersCount, Hold.holders, List.count_singleton]
    have now' : ((s.setLease k { l with hold := .held m g n [] }).raiseHeld m).waitingNow x = s.waitingNow x := rfl
    rw [before, after] at count
    rw [now', master_raiseHeld]
    by_cases here : m = x
    · subst here
      simp only [if_true, master_setLease] at count ⊢
      exact ⟨by omega, is', by omega⟩
    · simp only [here, if_false, master_setLease] at count ⊢
      exact ⟨by omega, is', fits⟩

theorem master_softReset (s : State) (n : Mid) : s.softReset.master n = (s.master n).softReset := by
  simp [softReset, master]

theorem counts_softReset (s : State) (counts : s.Counts) : s.softReset.Counts := by
  refine ⟨counts.shape.of_claims (by rw [queue_softReset]; exact List.nil_sublist _) fun k l' holds => ?_,
    counts.queue.of_claims (by rw [queue_softReset]; exact List.nil_sublist _), fun n => ?_⟩
  · obtain ⟨l, was, range, -, ⟨o, g, hold⟩, -⟩ := lease_softReset holds
    rw [hold, range]
    exact ⟨trivial, (counts.shape.1 k l was).2⟩
  · have now : s.softReset.heldNow n = 0 := heldNow_of_clear fun k l' holds => by
      obtain ⟨-, -, -, -, ⟨o, g, hold⟩, -⟩ := lease_softReset holds
      rw [hold]
      exact not_involves_tainted
    have now' : s.softReset.waitingNow n = 0 := by rw [waitingNow, queue_softReset]; rfl
    rw [now, now', master_softReset]
    exact ⟨rfl, rfl, Nat.zero_le _⟩

theorem Calm.counts (h : s.Calm t) (counts : s.Counts) : t.Counts := by
  have descents : ∀ {s t}, Relation.ReflTransGen Descent s t → s.Counts → t.Counts := fun run start =>
    keeps_of_descents (P := Counts) (fun _ _ step => step.counts) run start
  cases h with
  | outer outer => rw [outer]; exact counts.of_same rfl rfl rfl
  | table steps => exact (descents steps counts).of_same rfl rfl rfl
  | thin thins => exact thins.counts counts
  | enqueue admits _ few short tags => exact counts.enqueue admits few short tags
  | adopt holds hold _ room => exact counts.adopt holds hold room
  | master remasters => exact counts.setMaster remasters.held remasters.waiting remasters.quota
  | strip _ clear => exact counts.strip clear
  | @fence m x _ held waiting quota =>
    have settings := counts.setMaster held waiting quota
    have silent := descents (quiet_withoutNotices (s.setMaster m x) m).steps settings
    have start : ((s.setMaster m x).fenceStart m).Counts := by
      refine silent.setMaster (by simp only [master_mapSlots]) (by simp only [master_mapSlots]) ?_
      simp only [master_mapSlots]
      exact id
    exact (descents (quiet_fenceCuts _ m).steps start).strip (clearOf_fenceCuts _ m)
  | repool => exact counts.of_same rfl rfl rfl
  | softReset => exact counts_softReset s counts

/-! ### Grants -/

theorem holders_newLease (c : Claim) : c.newLease.hold.holders = [c.master] := by
  cases mode : c.mode <;> simp only [Claim.newLease, mode] <;> rfl

theorem shape_newLease (c : Claim) : HoldShape c.newLease.hold := by
  cases mode : c.mode with
  | exclusive => simp only [Claim.newLease, mode]; exact ⟨by simp, by simp⟩
  | shared => simp only [Claim.newLease, mode]; exact ⟨by simp, by simp, by simp⟩

/-- A grant raises the held count that R128 defines by one, for its master. -/
theorem Grants.heldNow {c : Claim} (h : s.Grants c k t) (n : Mid) :
    t.heldNow n = s.heldNow n + if n = c.master then 1 else 0 := by
  have others : ∀ j, k ≠ j → t.lease j = s.lease j := fun j ne => congrArg Slot.lease (h.others j ne)
  have count := heldNow_of_one others n
  have one : holdersCount (t.lease k) n = holdersCount (s.lease k) n + if n = c.master then 1 else 0 := by
    rcases h.placed with ⟨l, es, ns, -, holds, hold, -, slot, -⟩ | ⟨free, -, ns, slot, -⟩
    · simp only [lease] at holds
      simp only [lease, slot, holds, holdersCount, hold, Hold.holders, List.map_append, List.count_append, List.map_cons,
        List.map_nil, List.count_singleton, Claim.sharer, beq_iff_eq, eq_comm (a := c.master)]
    · simp only [lease] at free
      simp only [lease, slot, free, holdersCount, holders_newLease, List.count_singleton, beq_iff_eq, Nat.zero_add,
        eq_comm (a := c.master)]
  omega

/-- A claim that overlaps no lease of its own master's is on no sharer list it could join (R45, R62). -/
theorem not_shares_of_overlapsOwn {c : Claim} {l : Lease} (own : s.overlapsOwn c = none) (granules : 0 < c.range.count)
    (holds : s.lease k = some l) (range : l.range = c.range) : l.hold.shares c.master = false := by
  have apart := (findLease_eq_none (s := s)).1 own k l holds
  have overlap : l.range.overlaps c.range = true := by
    rw [range]
    simp only [Range.overlaps, Bool.and_eq_true, decide_eq_true_eq, max_self, min_self, true_and]
    omega
  rw [overlap, Bool.true_and] at apart
  by_contra share
  rw [Bool.not_eq_false] at share
  obtain ⟨es, hold⟩ := shared_of_shares share
  rw [hold] at apart share
  have is : (Hold.shared es).role c.master = .sharer := if_pos share
  simp [Hold.holdsRole, is] at apart

theorem Grants.shape {c : Claim} (h : s.Grants c k t) (own : s.overlapsOwn c = none) (granules : 0 < c.range.count)
    (law : s.ShapeLaw) (j : SlotIx) (l' : Lease) (holds' : t.lease j = some l') :
    HoldShape l'.hold ∧ 0 < l'.range.count := by
  by_cases here : k = j
  · subst here
    rcases h.placed with ⟨l, es, ns, -, holds, hold, range, slot, -⟩ | ⟨-, -, ns, slot, -⟩
    · simp only [lease, slot, Option.some.injEq] at holds'
      subst holds'
      have share := not_shares_of_overlapsOwn own granules holds range
      obtain ⟨shape, count⟩ := law.1 k l holds
      rw [hold] at shape share
      obtain ⟨-, -, distinct⟩ := shape
      have distinct' : ((es ++ [c.sharer]).map Sharer.master).Nodup := by
        rw [List.map_append]
        refine distinct.append (List.nodup_singleton _) ?_
        have apart : c.master ∉ es.map Sharer.master := fun mem => by
          rw [show (Hold.shared es).shares c.master = true from shares_iff.2 mem] at share; cases share
        simpa [Claim.sharer] using apart
      refine ⟨⟨by simp, ?_, distinct'⟩, count⟩
      have few := distinct'.length_le_card
      simpa using few
    · simp only [lease, slot, Option.some.injEq] at holds'
      subst holds'
      exact ⟨shape_newLease c, granules⟩
  · rw [lease, h.others j here] at holds'
    exact law.1 j l' holds'

theorem NewGrant.counts (h : s.NewGrant t) (counts : s.Counts) : t.Counts := by
  obtain ⟨admits, own, grantable⟩ := h
  rename_i c p
  have grants := grants_grantAt grantable
  have queue : (s.grantAt c p).queue = s.queue := by rw [grantAt_frame]
  refine ⟨counts.shape.of_claims (by rw [queue]) (grants.shape own admits.granules counts.shape),
    counts.queue.of_claims (by rw [queue]), fun n => ?_⟩
  obtain ⟨is, is', fits⟩ := counts.quota n
  have room := admits.room
  have waits : (s.grantAt c p).waitingNow n = s.waitingNow n := by simp only [waitingNow, queue]
  rw [grants.heldNow, waits, master_grantAt grantable]
  by_cases here : n = c.master
  · subst here
    simp only [if_true]
    exact ⟨by omega, is', by omega⟩
  · simp only [here, if_false, Nat.add_zero]
    exact ⟨is, is', fits⟩

theorem PassGrant.counts (h : s.PassGrant t) (counts : s.Counts) : t.Counts := by
  obtain ⟨queue, place⟩ := h
  rename_i older rest e p
  obtain ⟨waiting, own, grantable⟩ := passPlace_eq_some place
  have grants := grants_grantInPass grantable
  have sub : (older ++ rest).Sublist s.queue := by
    rw [queue]; exact List.Sublist.append_left (List.sublist_cons_self ..) _
  have granules := counts.shape.2 e (by rw [queue]; simp)
  refine ⟨counts.shape.of_claims (sub.map _) (grants.shape own granules counts.shape),
    counts.queue.of_claims (sub.map _), fun n => ?_⟩
  obtain ⟨is, is', fits⟩ := counts.quota n
  have held : ((s.grantInPass e.claim p).setQueue (older ++ rest)).heldNow n = (s.grantInPass e.claim p).heldNow n := rfl
  have waits : s.waitingNow n =
      ((s.grantInPass e.claim p).setQueue (older ++ rest)).waitingNow n + if n = e.claim.master then 1 else 0 :=
    waitingNow_withdrawn queue waiting rfl n
  rw [held, grants.heldNow, master_setQueue, master_grantInPass grantable]
  by_cases here : n = e.claim.master
  · subst here
    simp only [if_true] at waits ⊢
    exact ⟨by omega, by omega, by omega⟩
  · simp only [here, if_false, Nat.add_zero] at waits ⊢
    exact ⟨is, is'.trans waits, fits⟩

theorem counts_resetAs (s : State) (cause : ResetCause) (sup : Mid) (seg : BitVec 4) :
    (s.resetAs cause sup seg).Counts := by
  have lease : ∀ k, (s.resetAs cause sup seg).lease k = none := fun k => by
    simp [resetAs, State.reset, lease, slot, Slot.reset]
  refine ⟨⟨fun k l holds => ?_, fun e mem => (by cases mem)⟩, ⟨Nat.zero_le _, fun _ => Nat.zero_le _, .nil⟩, fun n => ?_⟩
  · rw [lease] at holds; cases holds
  · have now : (s.resetAs cause sup seg).heldNow n = 0 :=
      heldNow_of_clear fun k l holds => by rw [lease] at holds; cases holds
    have record : (s.resetAs cause sup seg).master n = Master.reset := by simp [resetAs, State.reset, master]
    rw [now, record]
    exact ⟨rfl, rfl, Nat.zero_le _⟩

end Sys2Proof.Machine.State

namespace Sys2Proof.Proofs

open Sys2Proof.Machine

/-- Settles O57: the three laws together pass through every change and every grant. -/
theorem countsKept : Obligations.CountsKept := by
  intro s t shape queue quota e
  obtain ⟨shape', queue', quota'⟩ := State.step_keeps (P := State.Counts) (fun _ _ h => h.counts) (fun _ _ h => h.counts)
    (fun _ _ h => h.counts) State.counts_resetAs (fun _ _ h => ⟨h.shape, h.queue, h.quota⟩) e ⟨shape, queue, quota⟩
  exact ⟨shape', queue', quota'⟩

end Sys2Proof.Proofs
end

section
/-! PROOF. The scrub law (O60). -/

namespace Sys2Proof.Machine.State

variable {s t u : State} {k : SlotIx} {m : Mid}

/-- A change that leaves the engine, the leases in SCRUB and their generations leaves the scrub law. -/
theorem ScrubCore.of_same (core : s.ScrubCore) (scrub : t.scrub = s.scrub) (slot : t.slot = s.slot) : t.ScrubCore := by
  refine core.congr scrub (fun k => ?_) fun k _ => by rw [slot]
  simp only [InScrub, lease, slot]

theorem Quiet.scrubCore (h : s.Quiet t) (core : s.ScrubCore) : t.ScrubCore :=
  core.congr (by rw [frame_of_descents h.steps]) h.scrub fun k _ => gen_of_descents h.steps k

theorem scrubCore_softReset (s : State) : s.softReset.ScrubCore := by
  have engine : s.softReset.scrub = s.scrub.softReset := by unfold softReset; rfl
  refine ⟨?_, ?_, ⟨fun k inScrub => ?_, fun h mem => ?_⟩⟩
  · rw [engine]; exact sound_of_idle (fun x mem => by cases mem) rfl rfl rfl
  · rw [engine]; rintro ⟨x, mem, -⟩; cases mem
  · obtain ⟨l, holds, state⟩ := inScrub
    obtain ⟨-, -, -, -, ⟨o, g, hold⟩, -⟩ := lease_softReset holds
    rw [hold] at state
    cases state
  · rw [engine] at mem; cases mem

theorem scrubCore_strip (st : MasterState) (core : s.ScrubCore) : (s.strip m st).ScrubCore := core.of_same rfl rfl

theorem Calm.scrubCore (h : s.Calm t) (core : s.ScrubCore) : t.ScrubCore := by
  cases h with
  | outer outer => rw [outer]; exact core.of_same rfl rfl
  | table _ _ _ kept => exact kept core
  | thin thins => rw [thins.frame]; exact core.of_same rfl rfl
  | enqueue => exact core.of_same rfl rfl
  | @adopt m k' l o g n holds hold =>
    refine core.congr rfl (fun k => ?_) fun k _ => by simp
    simp only [InScrub, lease_raiseHeld, lease_setLease]
    by_cases here : k' = k
    · subst here; simp [holds, hold, Hold.state]
    · simp [here]
  | master => exact core.of_same rfl rfl
  | strip => exact scrubCore_strip .detached core
  | @fence m x =>
    have settings : (s.setMaster m x).ScrubCore := core.of_same rfl rfl
    have silent := (quiet_withoutNotices (s.setMaster m x) m).scrubCore settings
    have start : ((s.setMaster m x).fenceStart m).ScrubCore := silent.of_same rfl rfl
    have cut := (quiet_fenceCuts (s.setMaster m x) m).scrubCore start
    exact scrubCore_strip .fenced cut
  | repool => exact core.of_same rfl rfl
  | softReset => exact scrubCore_softReset s

/-- A grant makes or extends a lease that is not in SCRUB. -/
theorem Grants.scrubCore {c : Claim} (h : s.Grants c k t) (scrub : t.scrub = s.scrub) (core : s.ScrubCore) :
    t.ScrubCore := by
  have here : ¬t.InScrub k ∧ ¬s.InScrub k := by
    rcases h.placed with ⟨l, es, ns, -, holds, hold, -, slot, -⟩ | ⟨free, -, ns, slot, -⟩
    · simp only [InScrub, lease, slot] at holds ⊢
      simp [holds, hold, Hold.state]
    · simp only [InScrub, lease, slot] at free ⊢
      cases mode : c.mode <;> simp [free, Claim.newLease, mode, Hold.state]
  refine core.congr scrub (fun j => ?_) fun j inScrub => ?_
  · by_cases is : k = j
    · subst is; exact ⟨fun h => absurd h here.1, fun h => absurd h here.2⟩
    · simp only [InScrub, lease, h.others j is]
  · rw [h.others j fun is => here.2 (is ▸ inScrub)]

theorem NewGrant.scrubCore (h : s.NewGrant t) (core : s.ScrubCore) : t.ScrubCore := by
  obtain ⟨-, -, grantable⟩ := h
  exact (grants_grantAt grantable).scrubCore (by rw [grantAt_frame]) core

theorem PassGrant.scrubCore (h : s.PassGrant t) (core : s.ScrubCore) : t.ScrubCore := by
  have scrub : t.scrub = s.scrub := by obtain ⟨-, -⟩ := h; rw [grantInPass_frame]; rfl
  obtain ⟨_, _, -, grants⟩ := h.grants
  exact grants.scrubCore scrub core

theorem scrubCore_resetAs (s : State) (cause : ResetCause) (sup : Mid) (seg : BitVec 4) :
    (s.resetAs cause sup seg).ScrubCore := by
  refine ⟨sound_of_idle (fun x mem => by cases mem) rfl rfl rfl, ?_, ⟨fun k inScrub => ?_, fun h mem => by cases mem⟩⟩
  · rintro ⟨x, mem, -⟩; cases mem
  · obtain ⟨l, holds, -⟩ := inScrub
    simp [resetAs, State.reset, lease, slot, Slot.reset] at holds

/-- A transaction waits only during a run (R156). -/
theorem waits_step (e : step s = .next t) (law : s.held ≠ [] → s.scrub.run.isSome = true) :
    t.held ≠ [] → t.scrub.run.isSome = true := by
  rcases step_cases e with ⟨_, ⟨-, waits⟩ | ⟨-, -, -, free⟩⟩ | ⟨u, cause, sup, seg, rfl⟩
  · exact waits law
  · exact fun some_held => absurd (deeds_takeHeld free).2.1 some_held
  · exact fun some_held => absurd rfl some_held

end Sys2Proof.Machine.State

namespace Sys2Proof.Proofs

open Sys2Proof.Machine

/-- Settles O60: the engine's part of the law passes through every change; what waits for a run's end is its own lemma. -/
theorem scrubLawKept : Obligations.ScrubLawKept := by
  intro s t law e
  rw [State.scrubLaw_iff] at law ⊢
  exact ⟨State.step_keeps (P := State.ScrubCore) (fun _ _ h => h.scrubCore) (fun _ _ h => h.scrubCore)
    (fun _ _ h => h.scrubCore) State.scrubCore_resetAs (fun _ _ h => h.congr rfl (fun _ => .rfl) fun _ _ => rfl) e law.1,
    State.waits_step e law.2⟩

end Sys2Proof.Proofs
end

section
/-! PROOF. The attachment, threshold and supervisor laws (O58). -/

namespace Sys2Proof.Machine.State

variable {s t u : State} {k : SlotIx} {m n : Mid}

/-! ### Having nothing, change by change (R126) -/

theorem holdsNothing_iff :
    s.HoldsNothing n ↔ (∀ k l, s.lease k = some l → ¬l.hold.Involves n ∧ l.notices[n] = none) ∧
      (∀ e ∈ s.queue, e.claim.master ≠ n) ∧ (s.master n).orphan = none := by
  refine and_congr_left fun _ => forall_congr' fun k => forall_congr' fun l => forall_congr' fun _ => ?_
  unfold Hold.Involves
  rw [not_or, not_or, Bool.not_eq_true, and_assoc, and_assoc]

/-- A master that is not ATTACHED has nothing. -/
def Bare (n : Mid) (s : State) : Prop := s.attached n = false → s.HoldsNothing n

theorem Bare.of_less (bare : Bare n s) (attached : t.attached n = false → s.attached n = false)
    (lease : ∀ k l, t.lease k = some l → s.lease k = some l)
    (queue : ∀ e ∈ t.queue, ∃ e' ∈ s.queue, e'.claim.master = e.claim.master)
    (orphan : (t.master n).orphan = (s.master n).orphan ∨ (t.master n).orphan = none) : Bare n t := by
  intro is
  have nothing := bare (attached is)
  rw [holdsNothing_iff] at nothing ⊢
  refine ⟨fun k l holds => nothing.1 k l (lease k l holds), fun e mem => ?_, orphan.elim (·.trans nothing.2.2) id⟩
  obtain ⟨e', mem', same⟩ := queue e mem
  exact same ▸ nothing.2.1 e' mem'

theorem Bare.of_same (bare : Bare n s) (lease : t.lease = s.lease) (queue : t.queue = s.queue)
    (master : t.master n = s.master n) : Bare n t := by
  refine bare.of_less (fun is => ?_) (fun k l holds => by rwa [lease] at holds)
    (fun e mem => ⟨e, by rwa [queue] at mem, rfl⟩) (.inl (by rw [master]))
  rwa [attached, master] at is

theorem Descent.bare (h : s.Descent t) (bare : Bare n s) : Bare n t := by
  intro is
  rw [h.attached] at is
  have nothing := bare is
  rw [holdsNothing_iff] at nothing ⊢
  obtain ⟨leases, queue, orphan⟩ := nothing
  refine ⟨fun k l' holds => ?_, fun e mem => queue e ?_, ?_⟩
  · obtain ⟨l, was, descends⟩ := h.lease k l' holds
    obtain ⟨part, notice⟩ := leases k l was
    refine ⟨fun now => ?_, ?_⟩
    · rcases descends.involved n now with before | attached
      · exact part before
      · rw [is] at attached; cases attached
    · by_contra told
      rcases descends.notices n told with before | attached
      · exact before notice
      · rw [is] at attached; cases attached
  · rwa [h.frame] at mem
  · by_contra some_orphan
    rcases h.orphan n some_orphan with before | attached | ⟨k, l, was, notice⟩
    · exact before orphan
    · rw [is] at attached; cases attached
    · exact notice (leases k l was).2

theorem bare_strip_other {st : MasterState} (ne : n ≠ m) (bare : Bare n s) : Bare n (s.strip m st) := by
  refine bare.of_less (fun is => ?_) (fun _ _ => id) (fun e mem => ⟨e, List.mem_of_mem_filter mem, rfl⟩) (.inl ?_)
  · rwa [attached, master_strip, if_neg ne] at is
  · rw [master_strip, if_neg ne]

theorem bare_setMaster_other {x : Master} (ne : n ≠ m) (bare : Bare n s) : Bare n (s.setMaster m x) :=
  bare.of_same rfl rfl (by rw [master_setMaster, if_neg (Ne.symm ne)])

theorem bare_softReset (s : State) (n : Mid) : Bare n s.softReset := by
  intro _
  rw [holdsNothing_iff]
  refine ⟨fun k l' holds => ?_, fun e mem => ?_, by rw [master_softReset]; rfl⟩
  · obtain ⟨-, -, -, -, ⟨o, g, hold⟩, notices⟩ := lease_softReset holds
    rw [hold, notices]
    exact ⟨not_involves_tainted, noticeSet_empty_get n⟩
  · rw [queue_softReset] at mem; cases mem

theorem Calm.bare (h : s.Calm t) (bare : Bare n s) : Bare n t := by
  have descents : ∀ {s t}, Relation.ReflTransGen Descent s t → Bare n s → Bare n t := fun run start =>
    keeps_of_descents (P := Bare n) (fun _ _ step => step.bare) run start
  cases h with
  | outer outer => rw [outer]; exact Bare.of_same bare rfl rfl rfl
  | table steps => exact Bare.of_same (descents steps bare) rfl rfl rfl
  | thin thins =>
    have lease : t.lease = s.lease := by rw [thins.frame]; rfl
    have record := thins.master n
    refine bare.of_less (fun is => ?_) (fun k l holds => by rwa [lease] at holds) (fun e mem => ?_) (.inl (by rw [record]))
    · rwa [attached, record] at is
    · obtain ⟨e', mem', claim⟩ := List.mem_map.1 (thins.claims.subset (List.mem_map_of_mem mem))
      exact ⟨e', mem', by rw [claim]⟩
  | @enqueue c wait admits =>
    intro is
    have still : s.attached n = false := by
      rw [attached, master_raiseWaiting] at is
      split at is
      · rename_i here; subst here; exact is
      · exact is
    have nothing := bare still
    have ne : c.master ≠ n := fun here => by have is := admits.attached; rw [here, still] at is; cases is
    rw [holdsNothing_iff] at nothing ⊢
    refine ⟨nothing.1, fun e mem => ?_, ?_⟩
    · rcases List.mem_append.1 mem with old | new
      · exact nothing.2.1 e old
      · rw [List.mem_singleton.1 new]; exact ne
    · rw [master_raiseWaiting, if_neg ne]; exact nothing.2.2
  | @adopt m k' l o g x holds hold attached =>
    intro is
    have ne : m ≠ n := fun here => by
      subst here
      rw [State.attached, master_raiseHeld, if_pos rfl] at is
      rw [State.attached] at attached
      simp_all
    have still : s.attached n = false := by rwa [State.attached, master_raiseHeld, if_neg ne] at is
    have nothing := bare still
    rw [holdsNothing_iff] at nothing ⊢
    refine ⟨fun j l' holds' => ?_, nothing.2.1, by rw [master_raiseHeld, if_neg ne]; exact nothing.2.2⟩
    rw [lease_raiseHeld, lease_setLease] at holds'
    split at holds'
    · obtain rfl := Option.some.inj holds'
      refine ⟨?_, (nothing.1 k' l holds).2⟩
      rintro (owner | share | frame)
      · exact ne (Option.some.inj owner)
      · cases share
      · cases frame
    · exact nothing.1 j l' holds'
  | @master m x remasters =>
    by_cases here : n = m
    · subst here
      refine bare.of_less (fun is => ?_) (fun _ _ => id) (fun e mem => ⟨e, mem, rfl⟩) ?_
      · rw [attached, master_setMaster, if_pos rfl] at is
        have un := remasters.unattached (by simpa using is)
        simpa [attached] using un
      · rw [master_setMaster, if_pos rfl]; exact remasters.orphan
    · exact bare_setMaster_other here bare
  | @strip m attached clear =>
    by_cases here : n = m
    · subst here; exact fun _ => clear.holdsNothing .detached
    · exact bare_strip_other here bare
  | @fence m x =>
    by_cases here : n = m
    · subst here; exact fun _ => (clearOf_fenceCuts _ n).holdsNothing .fenced
    · have silent := descents (quiet_withoutNotices (s.setMaster m x) m).steps (bare_setMaster_other here bare)
      have start : Bare n ((s.setMaster m x).fenceStart m) := bare_setMaster_other here silent
      exact bare_strip_other here (descents (quiet_fenceCuts (s.setMaster m x) m).steps start)
  | repool => exact Bare.of_same bare rfl rfl rfl
  | softReset => exact bare_softReset s n

theorem involves_newLease {c : Claim} (h : c.newLease.hold.Involves n) : n = c.master := by
  cases mode : c.mode with
  | exclusive =>
    simp only [Claim.newLease, mode] at h
    rcases h with owner | share | frame
    · exact (Option.some.inj owner).symm
    · cases share
    · cases frame
  | shared =>
    simp only [Claim.newLease, mode] at h
    rcases h with owner | share | frame
    · cases owner
    · exact List.mem_singleton.1 (shares_iff.1 share)
    · cases frame

/-- A grant gives nothing to any master but its own. -/
theorem Grants.bare {c : Claim} (h : s.Grants c k t) (ne : n ≠ c.master) (queue : t.queue.Sublist s.queue)
    (master : t.master n = s.master n) (bare : Bare n s) : Bare n t := by
  intro is
  have nothing := bare (by rwa [attached, master] at is)
  rw [holdsNothing_iff] at nothing ⊢
  refine ⟨fun j l' holds' => ?_, fun e mem => nothing.2.1 e (queue.subset mem), by rw [master]; exact nothing.2.2⟩
  by_cases here : k = j
  · subst here
    rcases h.placed with ⟨l, es, ns, -, holds, hold, -, slot, others⟩ | ⟨-, -, ns, slot, others⟩
    · simp only [lease, slot, Option.some.injEq] at holds'
      subst holds'
      obtain ⟨part, notice⟩ := nothing.1 k l holds
      refine ⟨?_, (others n ne).trans notice⟩
      rw [hold] at part
      rintro (owner | share | frame)
      · cases owner
      · rw [shares_iff] at share
        simp only [Hold.sharers, List.map_append, List.mem_append, List.map_cons, List.map_nil, List.mem_singleton] at share
        rcases share with old | new
        · exact part (.inr (.inl (shares_iff.2 old)))
        · exact ne new
      · cases frame
    · simp only [lease, slot, Option.some.injEq] at holds'
      subst holds'
      exact ⟨fun part => ne (involves_newLease part), others n ne⟩
  · rw [lease, h.others j here] at holds'
    exact nothing.1 j l' holds'

theorem NewGrant.bare (h : s.NewGrant t) (bare : Bare n s) : Bare n t := by
  obtain ⟨admits, -, grantable⟩ := h
  rename_i c p
  by_cases here : n = c.master
  · subst here
    intro is
    rw [attached, master_grantAt grantable, if_pos rfl] at is
    have attached := admits.attached
    rw [State.attached] at attached
    simp_all
  · exact (grants_grantAt grantable).bare here (by rw [grantAt_frame]) (by rw [master_grantAt grantable, if_neg here]) bare

theorem PassGrant.bare (h : s.PassGrant t) (bare : Bare n s) : Bare n t := by
  obtain ⟨queue, place⟩ := h
  rename_i older rest e p
  obtain ⟨-, -, grantable⟩ := passPlace_eq_some place
  have record := master_grantInPass grantable n
  by_cases here : n = e.claim.master
  · intro is
    have still : s.attached n = false := by
      rw [attached, master_setQueue, record, if_pos here] at is
      rw [here]
      exact is
    exact absurd here.symm ((holdsNothing_iff.1 (bare still)).2.1 e (by rw [queue]; simp))
  · have sub : (older ++ rest).Sublist s.queue := by
      rw [queue]; exact List.Sublist.append_left (List.sublist_cons_self ..) _
    obtain ⟨unblocked, placed, others⟩ := grants_grantInPass grantable
    exact Grants.bare (t := (s.grantInPass e.claim p).setQueue (older ++ rest)) ⟨unblocked, placed, others⟩ here sub
      (by rw [master_setQueue, record, if_neg here]) bare

theorem bare_resetAs (s : State) (cause : ResetCause) (sup : Mid) (seg : BitVec 4) : Bare n (s.resetAs cause sup seg) := by
  intro _
  rw [holdsNothing_iff]
  refine ⟨fun k l holds => ?_, fun e mem => (by cases mem), ?_⟩
  · simp [resetAs, State.reset, lease, slot, Slot.reset] at holds
  · simp [resetAs, State.reset, master, Master.reset]

/-! ### The state, the threshold and the violation count of a master -/

/-- `n` stands as it did: its state, its threshold and its violation count are the same. -/
structure Stands (n : Mid) (s t : State) : Prop where
  state : (t.master n).state = (s.master n).state
  threshold : (t.master n).threshold = (s.master n).threshold
  violations : (t.master n).violations = (s.master n).violations

theorem Stands.refl (n : Mid) (s : State) : Stands n s s := ⟨rfl, rfl, rfl⟩

theorem Stands.trans (h : Stands n s t) (g : Stands n t u) : Stands n s u :=
  ⟨g.state.trans h.state, g.threshold.trans h.threshold, g.violations.trans h.violations⟩

theorem stands_of_master (h : t.master n = s.master n) : Stands n s t := by constructor <;> rw [h]

theorem Descent.stands (h : s.Descent t) (n : Mid) : Stands n s t := by
  have record := h.master n
  constructor <;> rw [record]

/-- How a change can move a master: not at all, by new settings, or to DETACHED or FENCED. -/
inductive Moves (n : Mid) (s t : State) : Prop
  | stands (h : Stands n s t)
  | remasters {x : Master} (h : s.Remasters n x) (master : t.master n = x)
  | detached (state : (t.master n).state = .detached) (was : s.attached n = true)
      (threshold : (t.master n).threshold = (s.master n).threshold)
      (violations : (t.master n).violations = (s.master n).violations)
      (finished : n = s.supmid → ∀ x ∈ t.scrub.list, x.finished = false)
  | fenced (state : (t.master n).state = .fenced) (ne : n ≠ s.supmid)
  | reset (state : (t.master n).state = .detached) (violations : (t.master n).violations = 0)
      (finished : ∀ x ∈ t.scrub.list, x.finished = false)

theorem stands_of_descents (run : Relation.ReflTransGen Descent s t) (n : Mid) : Stands n s t :=
  keeps_of_descents (P := Stands n s) (fun _ _ step before => before.trans (step.stands n)) run (.refl n s)

theorem scrub_strip (s : State) (m : Mid) (st : MasterState) : (s.strip m st).scrub = s.scrub := rfl

theorem supmid_strip (s : State) (m : Mid) (st : MasterState) : (s.strip m st).supmid = s.supmid := rfl

theorem list_softReset (s : State) : s.softReset.scrub.list = [] := by unfold softReset; rfl

theorem supmid_softReset (s : State) : s.softReset.supmid = s.supmid := by unfold softReset; rfl

/-- A fence moves no other master, keeps the engine and leaves its own FENCED (R137). -/
theorem fenceClean_moves (s : State) (m n : Mid) (x : Master) :
    ((s.setMaster m x).fenceClean m).scrub = s.scrub ∧ ((s.setMaster m x).fenceClean m).supmid = s.supmid ∧
      (n ≠ m → Stands n s ((s.setMaster m x).fenceClean m)) ∧
      (((s.setMaster m x).fenceClean m).master m).state = .fenced := by
  have frame := frame_of_descents (quiet_fenceCuts (s.setMaster m x) m).steps
  have start := silence_frame (s.setMaster m x) m { (s.setMaster m x).master m with orphan := none, state := .fenced }
  have scrub : ((s.setMaster m x).fenceStart m).scrub = s.scrub := by rw [fenceStart, start]; rfl
  have supmid : ((s.setMaster m x).fenceStart m).supmid = s.supmid := by rw [fenceStart, start]; rfl
  refine ⟨?_, ?_, fun ne => ?_, ?_⟩
  · rw [← scrub]
    rw [fenceClean, scrub_strip, frame]
  · rw [← supmid]
    rw [fenceClean, supmid_strip, frame]
  · have first : Stands n s ((s.setMaster m x).fenceStart m) := stands_of_master <| by
      rw [fenceStart, master_silence, if_neg ne, master_setMaster, if_neg (Ne.symm ne)]
    refine (first.trans (stands_of_descents (quiet_fenceCuts _ m).steps n)).trans (stands_of_master ?_)
    rw [fenceClean, master_strip, if_neg ne]
  · rw [fenceClean, master_strip, if_pos rfl]

theorem Calm.moves (h : s.Calm t) (n : Mid) :
    t.supmid = s.supmid ∧ Moves n s t ∧
      ((∀ x ∈ t.scrub.list, x.finished = true → x ∈ s.scrub.list ∨ s.attached s.supmid = true)) := by
  cases h with
  | outer outer => rw [outer]; exact ⟨rfl, .stands (stands_of_master rfl), fun x mem _ => .inl mem⟩
  | @table u e steps terms finished =>
    have supmid : u.supmid = s.supmid := supmid_of_descents steps
    exact ⟨supmid, .stands ((stands_of_descents steps n).trans (stands_of_master rfl)), finished⟩
  | thin thins =>
    refine ⟨by rw [thins.frame], .stands ?_, fun x mem _ => .inl (by rwa [thins.frame] at mem)⟩
    have record := thins.master n
    constructor <;> rw [record]
  | @enqueue c wait =>
    refine ⟨rfl, .stands ?_, fun x mem _ => .inl mem⟩
    constructor <;> (rw [master_raiseWaiting]; split; · rename_i here; subst here; rfl) <;> rfl
  | @adopt m =>
    refine ⟨rfl, .stands ?_, fun x mem _ => .inl mem⟩
    constructor <;> (rw [master_raiseHeld]; split; · rename_i here; subst here; rfl) <;> rfl
  | @master m x remasters =>
    refine ⟨rfl, ?_, fun x mem _ => .inl mem⟩
    by_cases here : m = n
    · subst here; exact .remasters remasters (by rw [master_setMaster, if_pos rfl])
    · exact .stands (stands_of_master (by rw [master_setMaster, if_neg here]))
  | @strip m attached clear finished =>
    refine ⟨rfl, ?_, fun x mem _ => .inl mem⟩
    by_cases here : n = m
    · subst here
      have record := master_strip s n .detached n
      rw [if_pos rfl] at record
      exact .detached (by rw [record]) attached (by rw [record]) (by rw [record]) finished
    · exact .stands (stands_of_master (by rw [master_strip, if_neg here]))
  | @fence m x ne =>
    obtain ⟨scrub, supmid, others, own⟩ := fenceClean_moves s m n x
    refine ⟨supmid, ?_, fun y mem _ => .inl (by rwa [scrub] at mem)⟩
    by_cases here : n = m
    · subst here; exact .fenced own ne
    · exact .stands (others here)
  | repool => exact ⟨rfl, .stands (stands_of_master rfl), fun x mem _ => .inl mem⟩
  | softReset =>
    have list := list_softReset s
    refine ⟨supmid_softReset s, .reset ?_ ?_ fun x mem => ?_, fun x mem => ?_⟩
    · rw [master_softReset]; rfl
    · rw [master_softReset]; rfl
    · rw [list] at mem; cases mem
    · rw [list] at mem; cases mem

theorem NewGrant.stands (h : s.NewGrant t) (n : Mid) : Stands n s t ∧ t.supmid = s.supmid ∧ t.scrub = s.scrub := by
  obtain ⟨-, -, grantable⟩ := h
  refine ⟨?_, by rw [grantAt_frame], by rw [grantAt_frame]⟩
  constructor <;> (rw [master_grantAt grantable]; split; · rename_i here; rw [here]) <;> rfl

theorem PassGrant.stands (h : s.PassGrant t) (n : Mid) : Stands n s t ∧ t.supmid = s.supmid ∧ t.scrub = s.scrub := by
  obtain ⟨-, place⟩ := h
  obtain ⟨-, -, grantable⟩ := passPlace_eq_some place
  refine ⟨?_, by rw [grantInPass_frame]; rfl, by rw [grantInPass_frame]; rfl⟩
  constructor <;> (rw [master_setQueue, master_grantInPass grantable]; split; · rename_i here; rw [here]) <;> rfl

/-! ### The three laws -/

/-- While the supervisor is not ATTACHED no finished scrub entry is kept (R144). -/
def Kept (s : State) : Prop := s.attached s.supmid = false → ∀ e ∈ s.scrub.list, e.finished = false

theorem Kept.of_stands (kept : s.Kept) (stands : Stands s.supmid s t) (supmid : t.supmid = s.supmid)
    (scrub : t.scrub = s.scrub) : t.Kept := by
  unfold Kept attached at *
  rw [supmid, scrub, stands.state]
  exact kept

theorem Calm.kept (h : s.Calm t) (kept : s.Kept) : t.Kept := by
  obtain ⟨supmid, moves, finished⟩ := h.moves s.supmid
  intro is
  rw [supmid] at is
  have unattached : s.attached s.supmid = false → ∀ x ∈ t.scrub.list, x.finished = false := by
    intro un x mem
    by_contra done
    rcases finished x mem (by simpa using done) with old | attached
    · exact absurd (kept un x old) done
    · rw [un] at attached; cases attached
  cases moves with
  | stands stands => exact unattached (by rw [attached, stands.state] at is; exact is)
  | remasters remasters master =>
    refine unattached ?_
    rw [attached, master] at is
    have un := remasters.unattached (by simpa using is)
    simpa [attached] using un
  | detached _ _ _ _ none_kept => exact none_kept rfl
  | fenced _ ne => exact absurd rfl ne
  | reset _ _ none_kept => exact none_kept

theorem ThresholdLaw.of_stands (law : s.ThresholdLaw) (stands : ∀ n, Stands n s t) (supmid : t.supmid = s.supmid) :
    t.ThresholdLaw := by
  intro n ne positive met
  obtain ⟨state, threshold, violations⟩ := stands n
  rw [state]
  rw [threshold] at positive met
  rw [violations] at met
  exact law n (supmid ▸ ne) positive met

theorem Calm.thresholdLaw (h : s.Calm t) (law : s.ThresholdLaw) : t.ThresholdLaw := by
  intro n ne positive met
  obtain ⟨supmid, moves, -⟩ := h.moves n
  rw [supmid] at ne
  cases moves with
  | stands stands =>
    rw [stands.state]
    rw [stands.threshold] at positive met
    rw [stands.violations] at met
    exact law n ne positive met
  | remasters remasters master =>
    rw [master] at positive met ⊢
    exact remasters.threshold law ne positive met
  | detached _ was threshold violations =>
    rw [threshold] at positive met
    rw [violations] at met
    have fenced := law n ne positive met
    rw [attached, fenced] at was
    cases was
  | fenced state => exact state
  | reset _ violations => rw [violations] at met; omega

theorem SupervisorLaw.of_stands (law : s.SupervisorLaw) (stands : Stands s.supmid s t) (supmid : t.supmid = s.supmid) :
    t.SupervisorLaw := by
  unfold SupervisorLaw
  rw [supmid, stands.state]
  exact law

theorem Calm.supervisorLaw (h : s.Calm t) (law : s.SupervisorLaw) : t.SupervisorLaw := by
  obtain ⟨supmid, moves, -⟩ := h.moves s.supmid
  cases moves with
  | stands stands => exact law.of_stands stands supmid
  | remasters remasters master =>
    unfold SupervisorLaw
    rw [supmid, master]
    exact fun is => law (remasters.fenced is)
  | detached state => unfold SupervisorLaw; rw [supmid, state]; exact fun is => MasterState.noConfusion is
  | fenced _ ne => exact absurd rfl ne
  | reset state => unfold SupervisorLaw; rw [supmid, state]; exact fun is => MasterState.noConfusion is

theorem master_resetAs (s : State) (cause : ResetCause) (sup : Mid) (seg : BitVec 4) (n : Mid) :
    (s.resetAs cause sup seg).master n = Master.reset := by
  simp [resetAs, State.reset, master]

end Sys2Proof.Machine.State

namespace Sys2Proof.Proofs

open Sys2Proof.Machine

/-- Settles O58: the attachment law master by master, the other two by how a change can move a master. -/
theorem attachmentKept : Obligations.AttachmentKept := by
  intro s t e
  refine ⟨fun law => ⟨fun n => ?_, ?_⟩, ?_, ?_⟩
  · exact State.step_keeps (P := State.Bare n) (fun _ _ h => h.bare) (fun _ _ h => h.bare) (fun _ _ h => h.bare)
      State.bare_resetAs (fun _ _ h => h) e (law.1 n)
  · exact State.step_keeps (P := State.Kept) (fun _ _ h => h.kept)
      (fun s _ h kept => kept.of_stands (h.stands _).1 (h.stands s.supmid).2.1 (h.stands s.supmid).2.2)
      (fun s _ h kept => kept.of_stands (h.stands _).1 (h.stands s.supmid).2.1 (h.stands s.supmid).2.2)
      (fun _ _ _ _ _ x mem => by cases mem) (fun _ _ h => h) e law.2
  · exact State.step_keeps (P := State.ThresholdLaw) (fun _ _ h => h.thresholdLaw)
      (fun s _ h law => law.of_stands (fun n => (h.stands n).1) (h.stands s.supmid).2.1)
      (fun s _ h law => law.of_stands (fun n => (h.stands n).1) (h.stands s.supmid).2.1)
      (fun _ _ _ _ n _ positive met => by rw [State.master_resetAs] at met positive; cases met)
      (fun _ _ h => h) e
  · exact State.step_keeps (P := State.SupervisorLaw) (fun _ _ h => h.supervisorLaw)
      (fun s _ h law => law.of_stands (h.stands _).1 (h.stands s.supmid).2.1)
      (fun s _ h law => law.of_stands (h.stands _).1 (h.stands s.supmid).2.1)
      (fun _ _ _ _ => by unfold State.SupervisorLaw; rw [State.master_resetAs]; exact fun is => MasterState.noConfusion is)
      (fun _ _ h => h) e

end Sys2Proof.Proofs
end

section
/-! PROOF. The checks that stand before a request's own (O5, O6), and codes that are no request's (O7). -/

namespace Sys2Proof.Machine

/-- The command of a request is the write of its code to REQUEST. -/
theorem exec_command (r : Request) (m : Mid) (s : State) :
    exec (r.command m) s = .next (s.serveRequest m r.code r.rule) := by
  cases r <;> rfl

namespace State

variable {s u : State} {m : Mid} {r : Request} {a : Answer}

/-- A request whose rule changes nothing is answered, and that is all. -/
theorem answeredOnly_of_request (served : s.Served) (rule : r.rule (s.takeRequest m r.code) m = (s.takeRequest m r.code, a)) :
    s.AnsweredOnly (r.command m) m r.code a :=
  s.answeredOnly_of_rule served (exec_command r m s) rule

theorem supervisorStanding_of_standing (standing : u.standing m = some a) : u.supervisorStanding m = some a := by
  simp only [supervisorStanding, standing]

/-- A request of the supervisor's from another ATTACHED master (R125, R127). -/
theorem supervisorStanding_of_other (attached : (u.master m).state = .attached) (other : m ≠ u.supmid) :
    u.supervisorStanding m = some (.bare .notSupervisor) := by
  simp [supervisorStanding, standing_of_attached attached, isSupervisor_eq_false_iff.2 other]

/-- The supervisor requests change nothing when their standing checks fail (R127). -/
theorem supervisor_rule_refused (refused : u.supervisorStanding m = some a) (supervisor : r ∈ Request.supervisors) :
    r.rule u m = (u, a) := by
  simp only [Request.supervisors, List.mem_cons, List.not_mem_nil, or_false] at supervisor
  rcases supervisor with rfl | rfl | rfl | rfl | rfl | rfl | rfl | rfl | rfl | rfl | rfl | rfl <;>
    simp only [Request.rule, setPoolRule, setTimingRule, setMasterRule, setFillRule, fenceRule, unfenceRule, clearNoteRule,
      revokeRule, scrubRule, clearRule, adoptRule, softResetRule, refused, unlessRefused_some, onLease_standing]

/-- Every request but those a DETACHED master may issue, and CLAIM with its own answer, changes nothing when its standing
checks fail (R127). -/
theorem rule_refused (refused : u.standing m = some a) (notFree : r ∉ Request.free) (notClaim : r ≠ .claim) :
    r.rule u m = (u, a) := by
  by_cases supervisor : r ∈ Request.supervisors
  · exact supervisor_rule_refused (supervisorStanding_of_standing refused) supervisor
  · cases r <;> simp [Request.free, Request.supervisors] at notFree supervisor notClaim <;>
      simp only [Request.rule, detachRule, cancelRule, renewRule, releaseRule, downgradeRule, upgradeRule, lendRule,
        returnRule, recallRule, refused, unlessRefused_some, onLease_standing]

theorem claimRule_refused {a : Answer} (refused : claimRefusal u m (u.win m).claimArgs = some a) :
    claimRule u m = (u, a) := by
  simp only [claimRule, refused, unlessRefused_some]

theorem claimRefusal_of_fenced {x : ClaimArgs} (fenced : (u.master m).state = .fenced) :
    claimRefusal u m x = some (claimAnswer .fenced x.tag.toNat) := by
  simp only [claimRefusal, State.fenced, fenced, decide_true, if_true]

theorem claimRefusal_of_detached {x : ClaimArgs} (detached : (u.master m).state = .detached) :
    claimRefusal u m x = some (claimAnswer .notAttached x.tag.toNat) := by
  simp [claimRefusal, State.fenced, State.attached, detached]

/-- What a FENCED requester is told (R127). -/
theorem rule_of_fenced (fenced : (u.master m).state = .fenced) (notStatus : r ≠ .status) :
    r.rule u m = (u,
      if r = .attach then u.context m .fenced
      else if r = .claim then claimAnswer .fenced (u.win m).claimArgs.tag.toNat
      else .bare .fenced) := by
  have is : u.fenced m = true := decide_eq_true fenced
  by_cases free : r ∈ Request.free
  · simp only [Request.free, List.mem_cons, List.not_mem_nil, or_false] at free
    rcases free with rfl | rfl | rfl | rfl
    · simp only [Request.rule, attachRule, is, if_true]
    · exact absurd rfl notStatus
    · simp only [Request.rule, inspectRule, is, if_true, reduceCtorEq, if_false]
    · simp only [Request.rule, nextNoticeRule, is, if_true, reduceCtorEq, if_false]
  · by_cases claim : r = .claim
    · subst claim
      exact claimRule_refused (claimRefusal_of_fenced fenced)
    · have notAttach : r ≠ .attach := fun is => free (by rw [is]; decide)
      rw [if_neg notAttach, if_neg claim]
      exact rule_refused (standing_of_fenced fenced) free claim

/-- What a DETACHED requester is told (R127). -/
theorem rule_of_detached (detached : (u.master m).state = .detached) (notFree : r ∉ Request.free) :
    r.rule u m = (u,
      if r = .claim then claimAnswer .notAttached (u.win m).claimArgs.tag.toNat else .bare .notAttached) := by
  by_cases claim : r = .claim
  · subst claim
    exact claimRule_refused (claimRefusal_of_detached detached)
  · rw [if_neg claim]
    exact rule_refused (standing_of_detached detached) notFree claim

theorem nextNoticeRule_of_detached (detached : (u.master m).state = .detached) :
    nextNoticeRule u m = (u, .bare .noNotice) := by
  simp [nextNoticeRule, State.fenced, State.attached, detached]

/-! ### Handles that name nothing -/

theorem handles_cases (handle : r ∈ Request.handles) :
    r = .renew ∨ r ∈ Request.lending ∨ r = .revoke ∨ r = .scrub ∨ r = .clear ∨ r = .adopt := by
  revert handle
  cases r <;> decide

/-- A request with a handle that names nothing changes nothing (R22). -/
theorem rule_stale (standing : u.standing m = none) (supervisor : r ∈ Request.supervisors → u.supervisorStanding m = none)
    (handle : r ∈ Request.handles) (stale : u.lookup (u.win m).argHandle = none) :
    r.rule u m = (u, if r ∈ Request.lending then u.staleAnswer (u.win m).argHandle else .bare .stale) := by
  rcases handles_cases handle with rfl | lending | recovers
  · simp [Request.rule, renewRule, standing, onLease, stale, Request.lending]
  · rw [if_pos lending]
    simp only [Request.lending, List.mem_cons, List.not_mem_nil, or_false] at lending
    rcases lending with rfl | rfl | rfl | rfl | rfl | rfl <;>
      simp [Request.rule, releaseRule, downgradeRule, upgradeRule, lendRule, returnRule, recallRule, standing, onLease,
        stale]
  · rcases recovers with rfl | rfl | rfl | rfl <;>
      simp [Request.rule, revokeRule, scrubRule, clearRule, adoptRule, supervisor (by decide), onLease, stale,
        Request.lending]

/-- A handle as a number: 256 times the generation and the slot's number (Table 2-4). -/
theorem toNat_handleOf (g : BitVec 8) (k : SlotIx) : (handleOf g k).toNat = 256 * g.toNat + k.val := by
  have small : k.val < 32 := k.isLt
  have low : ((0#3 ++ BitVec.ofNat 5 k.val : BitVec 8)).toNat = k.val := by
    rw [BitVec.toNat_append]
    simp
  have value : (handleOf g k).toNat = (g ++ (0#3 ++ BitVec.ofNat 5 k.val)).toNat := rfl
  rw [value, BitVec.toNat_append, low, Nat.shiftLeft_eq, Nat.mul_comm, ← Nat.two_pow_add_eq_or_of_lt (i := 8) (by omega)]

end State

end Sys2Proof.Machine

namespace Sys2Proof.Proofs

open Sys2Proof.Machine

/-- Settles O5. -/
theorem standingChecks : Obligations.StandingChecks := by
  intro s m r served
  refine ⟨fun fenced notStatus => ?_, fun detached notFree => ?_, fun detached => ?_, fun attached other supervisor => ?_⟩
  · refine State.answeredOnly_of_request served ?_
    rw [State.rule_of_fenced (u := s.takeRequest m r.code) fenced notStatus]
    simp only [State.claimArgs_takeRequest, State.context_takeRequest]
  · refine State.answeredOnly_of_request served ?_
    rw [State.rule_of_detached (u := s.takeRequest m r.code) detached notFree]
    simp only [State.claimArgs_takeRequest]
  · exact State.answeredOnly_of_request (r := .nextNotice) served (State.nextNoticeRule_of_detached detached)
  · exact State.answeredOnly_of_request served
      (State.supervisor_rule_refused (State.supervisorStanding_of_other attached other) supervisor)

/-- Settles O6. -/
theorem staleHandles : Obligations.StaleHandles := by
  refine ⟨State.toNat_handleOf, fun s m r served attached supervisor handle nothing => ?_⟩
  refine State.answeredOnly_of_request served ?_
  have standing : (s.takeRequest m r.code).standing m = none := State.standing_of_attached attached
  rw [State.rule_stale standing (fun is => ?_) handle]
  · simp only [State.argHandle_takeRequest]
    rfl
  · rw [State.argHandle_takeRequest]
    exact (State.lookup_eq_none_iff m).2 nothing
  · have own := supervisor is
    subst own
    exact State.supervisorStanding_of_attached attached

/-- Settles O7. -/
theorem unknownRequestAnswered : Obligations.UnknownRequestAnswered := by
  intro s m code served unknown
  have runs : exec (.unknownRequest m code) s = .next (s.serveRequest m code (ruleOf code)) := rfl
  refine s.answeredOnly_of_rule served runs ?_
  simp only [ruleOf, unknown, unknownRule]

end Sys2Proof.Proofs
end

section
/-! PROOF. The step itself and the command window (R165 to R173): the idle step, the laws after reset, writes and reads of
the window's words. -/

namespace Sys2Proof.Machine

namespace State

variable {s t u : State} {m : Mid} {r : Request} {a : Answer}

/-! ### What a served request's statement needs -/

/-- A served request shows its answer, and beside the window and the bus it leaves what its rule leaves. -/
theorem answered_of_request (served : s.Served) (rule : r.rule (s.takeRequest m r.code) m = (u, a))
    (win : u.win = (s.takeRequest m r.code).win) :
    ∃ w b, exec (r.command m) s = .next { u with window := w, bus := b } ∧
      s.Answered { u with window := w, bus := b } m r.code a := by
  obtain ⟨frame, answered⟩ := serveRequest_answered served rule win
  refine ⟨_, _, (exec_command r m s).trans (congrArg Host.Outcome.next frame), ?_⟩
  rw [← frame]
  exact answered

/-- Replacing one master's record changes that record alone. -/
theorem masterBecomes_setMaster (s : State) (m : Mid) (x : Master) : s.MasterBecomes (s.setMaster m x) m x :=
  ⟨by rw [master_setMaster, if_pos rfl], fun n other => by rw [master_setMaster, if_neg other.symm]⟩

/-! ### Where a transaction lands (R165) -/

/-- A transaction in the window is the window's. -/
theorem transact_of_windowOffset {x : Word} {offset : BitVec 8} (at_window : s.windowOffset x = some offset)
    (dir : Direction) (size : Nat) (data : Word) :
    s.transact m x dir size data = s.serveWindow m offset dir size data := by
  simp only [transact, at_window]

/-- A transaction at the address of a window word is the window's. -/
theorem transact_window (s : State) (m : Mid) (offset : BitVec 8) (dir : Direction) (size : Nat) (data : Word) :
    s.transact m (BitVec.ofNat 32 (s.windowBase + offset.toNat)) dir size data = s.serveWindow m offset dir size data :=
  transact_of_windowOffset (s.windowOffset_windowBase offset) dir size data

/-- The offset of a window address leads back to it. -/
theorem address_of_windowOffset {x : Word} {offset : BitVec 8} (at_window : s.windowOffset x = some offset) :
    BitVec.ofNat 32 (s.windowBase + offset.toNat) = x := by
  rw [windowOffset_eq_ite] at at_window
  generalize s.windowBase = w at *
  split at at_window
  · next span =>
    obtain rfl := Option.some.inj at_window
    refine BitVec.eq_of_toNat_eq ?_
    rw [BitVec.toNat_ofNat, BitVec.toNat_ofNat]
    have := x.isLt
    omega
  · cases at_window

/-- While the scrub engine holds the bus a window access waits (R156). -/
theorem serveWindow_of_held (run : s.busHeld = true) (offset : BitVec 8) (dir : Direction) (size : Nat) (data : Word) :
    s.serveWindow m offset dir size data = s.hold (s.windowTransaction m offset dir size data) := by
  unfold serveWindow
  rw [if_pos run]

/-- An access during a reset or of a form the window does not serve gets the bus error response (R110, R166). -/
theorem serveWindow_of_error (free : s.busHeld = false) {offset : BitVec 8} {size : Nat}
    (error : s.inReset = true ∨ size ≠ 4 ∨ offset.toNat % 4 ≠ 0) (dir : Direction) (data : Word) :
    s.serveWindow m offset dir size data = s.setBus (.error 0) := by
  have test : s.inReset = true ∨ ¬wellFormedAccess offset size = true := by
    refine error.imp_right fun malformed => ?_
    rw [wellFormedAccess, Bool.and_eq_true, decide_eq_true_eq, decide_eq_true_eq, not_and_or]
    exact malformed
  unfold serveWindow
  rw [if_neg (by rw [free]; exact Bool.false_ne_true), if_pos test]

section Served

variable (free : s.busHeld = false) (noReset : s.inReset = false) {offset : BitVec 8} (aligned : offset.toNat % 4 = 0)
  (data : Word)

include free noReset aligned

/-- A well-formed write is carried out (R166). -/
theorem serveWindow_write : s.serveWindow m offset .write 4 data = s.windowWrite m offset data := by
  simp [serveWindow, free, noReset, wellFormedAccess, aligned]

/-- A well-formed read presents its word (R166). -/
theorem serveWindow_read :
    s.serveWindow m offset .read 4 data =
      s.setBus (if offset.toNat ∈ assignedOffsets then .ready (s.windowWord m offset) else .error 0) := by
  simp only [serveWindow, free, noReset, wellFormedAccess, aligned]
  simp only [Bool.false_eq_true, decide_true, Bool.and_self, not_true_eq_false, or_self, if_false]
  split <;> rfl

end Served

/-- The write of a request's code to REQUEST is the request (R166, R167). -/
theorem serveWindow_request {data : Word} (low : data.extractLsb' 0 8 = r.code)
    (kept : s.busHeld = true → data = r.code.setWidth 32) :
    s.serveWindow m 0 .write 4 data = s.serveRequest m r.code r.rule := by
  cases run : s.busHeld with
  | true => rw [serveWindow_of_held run, serveRequest_of_held s run, kept run]
  | false =>
    cases reset : s.inReset with
    | true => rw [serveWindow_of_error run (.inl reset), serveRequest_of_reset s run reset]
    | false =>
      rw [serveWindow_write run reset rfl, windowWrite, low, ruleOf_code]
      rfl

/-- A write elsewhere than to REQUEST and the argument words gets the bus error response (R166). -/
theorem windowWrite_of_other {offset : BitVec 8} (data : Word)
    (other : offset ∉ [0x00#8, 0x04#8, 0x08#8, 0x0C#8, 0x10#8]) : s.windowWrite m offset data = s.setBus (.error 0) := by
  simp only [List.mem_cons, List.not_mem_nil, or_false, not_or, ← BitVec.toNat_inj] at other
  obtain ⟨not0, not1, not2, not3, not4⟩ := other
  unfold windowWrite
  split
  · next e => exact absurd e not0
  · next e => exact absurd e not1
  · next e => exact absurd e not2
  · next e => exact absurd e not3
  · next e => exact absurd e not4
  · rfl

end State

/-! ### Packed words -/

/-- The number a placed field is. -/
theorem toNat_place {v lo width : Nat} (fits : lo + width ≤ 32) : (place v lo width).toNat = v % 2 ^ width * 2 ^ lo := by
  have below : v % 2 ^ width * 2 ^ lo < 2 ^ 32 :=
    calc v % 2 ^ width * 2 ^ lo < 2 ^ width * 2 ^ lo :=
          Nat.mul_lt_mul_of_pos_right (Nat.mod_lt _ (by positivity)) (by positivity)
      _ = 2 ^ (width + lo) := by rw [pow_add]
      _ ≤ 2 ^ 32 := Nat.pow_le_pow_right (by norm_num) (by omega)
  rw [place, BitVec.toNat_ofNat, Nat.mod_eq_of_lt below]

/-- A field placed above a word adds to it as a number. -/
theorem toNat_or_place {w : Word} {v lo width : Nat} (fits : lo + width ≤ 32) (below : w.toNat < 2 ^ lo) :
    (w ||| place v lo width).toNat = w.toNat + v % 2 ^ width * 2 ^ lo := by
  rw [BitVec.toNat_or, toNat_place fits, Nat.or_comm, Nat.mul_comm, ← Nat.two_pow_add_eq_or_of_lt below, Nat.add_comm,
    Nat.mul_comm]

/-- The RESULT word as a number (Table 10-1). -/
theorem toNat_resultWord (w : WindowSlot) :
    (State.resultWord w).toNat = w.result.toNat + 2 ^ 8 * w.answered.toNat + 2 ^ 16 * w.seq.toNat := by
  have result := w.result.isLt
  have answered := w.answered.isLt
  have seq := w.seq.isLt
  have low : (place w.result.toNat 0 8).toNat = w.result.toNat := by rw [toNat_place (by omega)]; omega
  have two := toNat_or_place (w := place w.result.toNat 0 8) (v := w.answered.toNat) (lo := 8) (width := 8) (by omega)
    (by omega)
  rw [State.resultWord, toNat_or_place (by omega) (by omega), two, low]
  omega

/-- The causes have the codes 1 to 3 (Table 10-5). -/
theorem ResetCause.code_lt (c : ResetCause) : c.code < 4 := by cases c <;> decide

/-- The word of cause and straps as a number (Table 10-8). -/
theorem State.toNat_causeWord (s : State) :
    s.causeWord.toNat = s.cause.code + 2 ^ 4 * s.supmid.val + 2 ^ 8 * s.wseg.toNat := by
  have cause := s.cause.code_lt
  have wseg := s.wseg.isLt
  have low : (place s.cause.code 0 2).toNat = s.cause.code := by rw [toNat_place (by omega)]; omega
  have two := toNat_or_place (w := place s.cause.code 0 2) (v := s.supmid.val) (lo := 4) (width := 3) (by omega)
    (by omega)
  rw [causeWord, toNat_or_place (by omega) (by omega), two, low]
  omega

/-- The fields of the word of live counts (Table 10-8). -/
theorem State.liveWord_fields (s : State) :
    field s.liveWord 0 6 = allSlots.countP (fun k => (s.lease k).isSome) ∧
      field s.liveWord 8 5 = s.queue.length % 32 ∧ field s.liveWord 16 4 = s.scrub.list.length % 16 ∧
      (∀ p : PoolIx, field s.liveWord (24 + p.val) 1 = flag (s.pool p).enabled) ∧
      field s.liveWord 28 1 = flag s.scrub.breq := by
  have few : allSlots.countP (fun k => (s.lease k).isSome) ≤ 32 := List.countP_le_length
  have leases : s.countLeases (fun _ => true) = allSlots.countP fun k => (s.lease k).isSome := rfl
  refine ⟨?_, ?_, ?_, fun p => ?_, ?_⟩
  · simp (disch := omega) only [liveWord, field_or, field_place, field_place_apart, leases, Nat.or_zero,
      Nat.mod_eq_of_lt]
  · simp (disch := omega) [liveWord, field_or, field_place, field_place_apart]
  · simp (disch := omega) [liveWord, field_or, field_place, field_place_apart]
  · fin_cases p <;> simp (disch := omega) [liveWord, field_or, field_place, field_place_apart]
  · simp (disch := omega) [liveWord, field_or, field_place, field_place_apart]

/-- The fields of the timing word (Table 10-8). -/
theorem State.timingWord_fields (s : State) :
    field s.timingWord 0 16 = s.time.divider % 2 ^ 16 ∧ field s.timingWord 16 8 = s.time.warnLevel % 2 ^ 8 ∧
      field s.timingWord 24 8 = s.time.graceLength % 2 ^ 8 := by
  refine ⟨?_, ?_, ?_⟩ <;> simp (disch := omega) [timingWord, field_or, field_place, field_place_apart]

/-- The offsets of Table 10-1. -/
theorem mem_assignedOffsets {offset : BitVec 8} :
    offset.toNat ∈ State.assignedOffsets ↔
      offset ∈ [0x00#8, 0x04#8, 0x08#8, 0x0C#8, 0x10#8, 0x20#8, 0x24#8, 0x28#8, 0x2C#8, 0x30#8, 0x40#8, 0x80#8, 0x84#8,
        0x88#8, 0x8C#8] := by
  simp [State.assignedOffsets, ← BitVec.toNat_inj]

end Sys2Proof.Machine

namespace Sys2Proof.Proofs

open Sys2Proof.Machine

/-- Settles O1. -/
theorem stepRunsFrontCommand : Obligations.StepRunsFrontCommand := fun _ _ _ => rfl

/-- Settles O2, case by case of the idle step. -/
theorem idleStepPassesTime : Obligations.IdleStepPassesTime := by
  intro s q
  have idle : step q = .next q.idle := rfl
  rw [idle]
  refine ⟨fun reset => ?_, fun running => ⟨fun table queue => ?_, fun table queue => ?_, fun table queue => ?_,
    fun table queue => ⟨fun early => ?_, fun full => ?_⟩⟩⟩
  · rw [State.idle, if_pos (show q.inReset = true from reset)]
  all_goals
    have reset : ¬q.inReset = true := by rw [State.setPending_inReset, running]; exact Bool.false_ne_true
    rw [State.idle, if_neg reset]
  · have first : q.tableIsNext = true := by simp [State.tableIsNext, q, table, queue]
    rw [if_pos first]; rfl
  · have second : ¬q.tableIsNext = true := by simp [State.tableIsNext, q, table]
    rw [if_neg second, if_pos (show 0 < q.ticks.queueDue from queue)]; rfl
  · by_cases first : q.tableIsNext = true
    · exact .inl (by rw [if_pos first]; rfl)
    · exact .inr (by rw [if_neg first, if_pos (show 0 < q.ticks.queueDue from queue)]; rfl)
  all_goals
    have second : ¬q.tableIsNext = true := by simp [State.tableIsNext, q, table]
    rw [if_neg second, if_neg (show ¬0 < q.ticks.queueDue from by simp [q, queue]), State.refclkPeriod]
  · rw [if_neg (by simpa [q] using early)]; rfl
  · rw [if_pos (by simpa [q] using full)]
    exact congrArg Host.Outcome.next (if_neg reset).symm

/-- Settles O3: the machine after reset is, but for the end of the reset, what a reset leaves, which meets the laws. -/
theorem resetMeetsLaws : Obligations.ResetMeetsLaws := by
  have counts : State.reset.Counts := State.Counts.of_same (State.counts_resetAs State.reset .power 0 0) rfl rfl rfl
  have master : ∀ n, State.reset.master n = Master.reset := State.master_resetAs State.reset .power 0 0
  refine ⟨State.coverage_resetAs State.reset .power 0 0, counts.shape, counts.queue, counts.quota,
    ⟨fun n => State.bare_resetAs (n := n) State.reset .power 0 0, fun _ e mem => by cases mem⟩,
    fun n _ threshold counted => ?_, ?_, State.poolLaw_resetAs State.reset .power 0 0,
    State.rangeLaw_resetAs State.reset .power 0 0,
    State.scrubLaw_iff.2 ⟨(State.scrubCore_resetAs State.reset .power 0 0).congr rfl (fun _ => Iff.rfl) fun _ _ => rfl,
      fun waiting => absurd rfl waiting⟩,
    State.termLaw_resetAs State.reset .power 0 0⟩
  · rw [master] at threshold counted
    cases Nat.lt_of_lt_of_le threshold counted
  · rw [State.SupervisorLaw, master]
    exact nofun

/-- Settles O4. -/
theorem requestIsWriteOfItsCode : Obligations.RequestIsWriteOfItsCode := by
  refine ⟨fun s m r data low kept => ?_, fun s m offset dir size data => ?_⟩
  · have written : s.serveWindow m 0 .write 4 data = s.serveRequest m r.code r.rule :=
      State.serveWindow_request low kept
    have base := s.windowOffset_windowBase 0
    rw [show (0 : BitVec 8).toNat = 0 from rfl, Nat.add_zero] at base
    rw [exec_command]
    exact ⟨congrArg Host.Outcome.next written,
      congrArg Host.Outcome.next ((State.transact_of_windowOffset base .write 4 data).trans written)⟩
  · exact congrArg Host.Outcome.next (State.transact_window s m offset dir size data)

/-- Settles O8. -/
theorem windowWrites : Obligations.WindowWrites := by
  intro s m data free
  refine ⟨fun noReset => ⟨fun offset w mem => ?_, fun offset other => ?_⟩, fun offset dir size error =>
    congrArg Host.Outcome.next (State.serveWindow_of_error free error dir data)⟩
  · have written : s.serveWindow m offset .write 4 data = (s.setWin m w).setBus (.ready 0) := by
      simp only [List.mem_cons, Prod.mk.injEq, List.not_mem_nil, or_false] at mem
      rcases mem with ⟨rfl, rfl⟩ | ⟨rfl, rfl⟩ | ⟨rfl, rfl⟩ | ⟨rfl, rfl⟩ <;>
        rw [State.serveWindow_write free noReset rfl] <;> rfl
    refine ⟨_, congrArg Host.Outcome.next written, rfl, ?_, fun n ne => ?_, rfl⟩
    · rw [State.win_setBus, State.win_setWin, if_pos rfl]
    · rw [State.win_setBus, State.win_setWin, if_neg ne.symm]
  · refine congrArg Host.Outcome.next ?_
    by_cases aligned : offset.toNat % 4 = 0
    · rw [State.serveWindow_write free noReset aligned, State.windowWrite_of_other data other]; rfl
    · exact State.serveWindow_of_error free (.inr (.inr aligned)) .write data

/-- Settles O9: what a read presents is `windowWord`, whose packed words are read as numbers and fields. -/
theorem windowReads : Obligations.WindowReads := by
  rintro s m data ⟨noReset, free⟩ assigned
  obtain ⟨leases, entries, list, pools, breq⟩ := s.liveWord_fields
  obtain ⟨divider, warnLevel, graceLength⟩ := s.timingWord_fields
  refine ⟨s.windowWord m, fun offset aligned => ?_, ?_, rfl, rfl, rfl, rfl, toNat_resultWord (s.win m), rfl, rfl, rfl, rfl,
    rfl, rfl, s.toNat_causeWord, leases, entries, list, pools, breq, divider, warnLevel, graceLength⟩
  · refine congrArg Host.Outcome.next ((State.transact_window s m offset .read 4 data).trans ?_)
    rw [State.serveWindow_read free noReset aligned]
    simp only [mem_assignedOffsets]
    rfl
  · have code := (s.win m).lastCode.isLt
    change (place (s.win m).lastCode.toNat 0 8).toNat = _
    rw [toNat_place (by omega)]
    omega

end Sys2Proof.Proofs
end

section
/-! PROOF. Master contexts and settings: ATTACH (R129), UNFENCE and CLEAR NOTE (R140, R141), SET TIMING and SET FILL
(R71, R72, R159), SET POOL (R9 to R13) and SOFT RESET (R142). -/

namespace Sys2Proof.Machine

/-- The terms of a lease in SHARED or in HELD are warned, and nothing else changes (R72). -/
theorem Hold.setWarned_of_not_held {h : Hold} (notHeld : h.state ≠ .held) : h.setWarned = h := by
  cases h <;> simp_all [Hold.setWarned, Hold.state]

namespace State

variable {s t u : State} {m v : Mid}

/-! ### Refusal notes and counts (R120, R140, R141) -/

/-- After the note is cleared the next refusal starts a new count and fills the note. -/
theorem countRefusal_of_cleared (cleared : (s.master v).violations = 0 ∧ (s.master v).note = none) (n : Note) :
    ((s.countRefusal v n).master v).violations = 1 ∧ ((s.countRefusal v n).master v).note = some n := by
  rw [(countRefusal_masterBecomes s v n).1, cleared.1, cleared.2]
  exact ⟨rfl, rfl⟩

/-! ### Rules on a master's record -/

/-- A DETACHED master becomes ATTACHED (R129). -/
theorem attachRule_of_detached (detached : (s.master m).state = .detached) :
    attachRule s m =
      (s.setMaster m { s.master m with state := .attached },
        (s.setMaster m { s.master m with state := .attached }).context m .ok) := by
  simp [attachRule, fenced, attached, detached]

/-- An ATTACHED master stays so (R129). -/
theorem attachRule_of_attached (attached : (s.master m).state = .attached) :
    attachRule s m = (s, s.context m .alreadyAttached) := by
  simp [attachRule, fenced, State.attached, attached]

theorem attachRule_of_fenced (fenced : (s.master m).state = .fenced) : attachRule s m = (s, s.context m .fenced) := by
  simp [attachRule, State.fenced, fenced]

/-- A master that is not FENCED has no fence to lift (R140). -/
theorem unfenceRule_of_not_fenced (standing : s.supervisorStanding m = none)
    (notFenced : (s.master (s.win m).argMaster).state ≠ .fenced) : unfenceRule s m = (s, .bare .wrongState) := by
  simp [unfenceRule, standing, fenced, notFenced]

/-- A fence lifted (R140). -/
theorem unfenceRule_of_fenced (standing : s.supervisorStanding m = none)
    (fenced : (s.master (s.win m).argMaster).state = .fenced) :
    unfenceRule s m =
      (s.setMaster (s.win m).argMaster { (s.master (s.win m).argMaster).cleared with state := .detached }, .bare .ok) := by
  simp [unfenceRule, standing, State.fenced, fenced]

/-! ### SET TIMING and SET FILL -/

/-- The time base and the leases as an accepted SET TIMING leaves them (R71, R72). -/
def retimed (s : State) (d w g : Nat) : State :=
  let t := s.setTime { s.time with divider := d, warnLevel := w, graceLength := g }
  if w = s.time.warnLevel then t else t.mapSlots slotSetWarned

theorem retimed_frame (s : State) (d w g : Nat) :
    s.retimed d w g =
      { s with
        slots := (s.retimed d w g).slots
        time := { s.time with divider := d, warnLevel := w, graceLength := g } } := by
  unfold retimed
  dsimp only
  split <;> rfl

/-- A warn level that stays leaves the leases (R72). -/
theorem slots_retimed_of_same {d w g : Nat} (same : w = s.time.warnLevel) : (s.retimed d w g).slots = s.slots := by
  simp only [retimed, if_pos same, setTime_slots]

/-- A warn level that changes warns every running term (R72). -/
theorem slot_retimed_of_changed {d w g : Nat} (changed : w ≠ s.time.warnLevel) (k : SlotIx) :
    (s.retimed d w g).slot k = slotSetWarned (s.slot k) := by
  simp only [retimed, if_neg changed, slot_mapSlots, slot_setTime]

theorem gen_retimed_of_changed {d w g : Nat} (changed : w ≠ s.time.warnLevel) (k : SlotIx) :
    ((s.retimed d w g).slot k).gen = (s.slot k).gen := by
  rw [slot_retimed_of_changed changed]
  rfl

theorem lease_retimed_of_changed {d w g : Nat} (changed : w ≠ s.time.warnLevel) (k : SlotIx) :
    (s.retimed d w g).lease k = (s.lease k).map fun l => { l with hold := l.hold.setWarned } := by
  rw [lease, slot_retimed_of_changed changed]
  rfl

/-- SET TIMING past its standing checks (R71). -/
theorem setTimingRule_eq (standing : s.supervisorStanding m = none) :
    setTimingRule s m =
      if (s.win m).argDivider = 0 then (s, .bare .badConfig)
      else (s.retimed (s.win m).argDivider (s.win m).argWarnLevel (s.win m).argGraceLength,
        .items .ok (s.win m).argDivider (s.win m).argWarnLevel (s.win m).argGraceLength) := by
  rw [setTimingRule, standing, unlessRefused_none]
  rfl

/-- SET FILL past its standing checks (R159). -/
theorem setFillRule_eq (standing : s.supervisorStanding m = none) :
    setFillRule s m =
      if (s.win m).argRunLength = 0 ∨ 64 < (s.win m).argRunLength then (s, .bare .badConfig)
      else (s.setScrub { s.scrub with fill := (s.win m).argFill, runLength := (s.win m).argRunLength },
        .items .ok (s.win m).argFill.toNat (s.win m).argRunLength) := by
  rw [setFillRule, standing, unlessRefused_none]
  simp [Answer.items, word]

end State

end Sys2Proof.Machine

namespace Sys2Proof.Proofs

open Sys2Proof.Machine

/-- Settles O10. -/
theorem attachByState : Obligations.AttachByState := by
  intro s m served
  refine ⟨fun detached => ?_, fun attached => ?_, fun fenced => ?_⟩
  · obtain ⟨_, _, run, answered⟩ := State.answered_of_request (r := .attach) served
      (State.attachRule_of_detached (s := s.takeRequest m 0x01) detached) rfl
    exact ⟨_, run, rfl, (s.takeRequest m 0x01).masterBecomes_setMaster m _, answered⟩
  · exact State.answeredOnly_of_request (r := .attach) served
      (State.attachRule_of_attached (s := s.takeRequest m 0x01) attached)
  · exact State.answeredOnly_of_request (r := .attach) served
      (State.attachRule_of_fenced (s := s.takeRequest m 0x01) fenced)

/-- Settles O35. -/
theorem unfenceLifts : Obligations.UnfenceLifts := by
  intro s served attached m v
  have standing : (s.takeRequest m 0x49).supervisorStanding m = none := State.supervisorStanding_of_attached attached
  have master : ((s.takeRequest m 0x49).win m).argMaster = v := s.argMaster_takeRequest m m _
  refine ⟨fun notFenced => ?_, fun fenced => ?_⟩
  · exact State.answeredOnly_of_request (r := .unfence) served
      (State.unfenceRule_of_not_fenced (s := s.takeRequest m 0x49) standing (by rw [master]; exact notFenced))
  · have rule := State.unfenceRule_of_fenced (s := s.takeRequest m 0x49) standing (by rw [master]; exact fenced)
    rw [master] at rule
    obtain ⟨w, b, run, answered⟩ := State.answered_of_request (r := .unfence) served rule rfl
    have becomes := (s.takeRequest m 0x49).masterBecomes_setMaster v
      { (s.master v).cleared with state := .detached }
    refine ⟨_, run, rfl, becomes, answered, State.countRefusal_of_cleared ?_⟩
    have record := becomes.1
    exact ⟨congrArg Master.violations record, congrArg Master.note record⟩

/-- Settles O36. -/
theorem clearNoteReportsAndClears : Obligations.ClearNoteReportsAndClears := by
  intro s served attached m v
  have standing : (s.takeRequest m 0x4A).supervisorStanding m = none := State.supervisorStanding_of_attached attached
  have rule : clearNoteRule (s.takeRequest m 0x4A) m =
      ((s.takeRequest m 0x4A).setMaster v (s.master v).cleared,
        { result := .ok, val0 := word (s.master v).violations, val1 := noteWord (s.master v).note
          val2 := noteAddress (s.master v).note, val3 := 0 }) := by
    rw [clearNoteRule, standing, State.unlessRefused_none, State.argMaster_takeRequest]
    rfl
  obtain ⟨w, b, run, answered⟩ := State.answered_of_request (r := .clearNote) served rule rfl
  have becomes := (s.takeRequest m 0x4A).masterBecomes_setMaster v (s.master v).cleared
  refine ⟨_, _, run, rfl, becomes, answered, rfl, rfl, fun noNote => ?_, fun n noted => ?_, rfl,
    State.countRefusal_of_cleared
      ⟨congrArg Master.violations becomes.1, congrArg Master.note becomes.1⟩⟩
  · simp only [noNote, noteWord, noteAddress, and_self]
  · obtain ⟨reason, dir, slot, present⟩ := noteWord_fields n
    simp only [noted]
    exact ⟨reason, dir, slot, present, rfl⟩

/-- Settles O31. -/
theorem settingsReplaced : Obligations.SettingsReplaced := by
  intro s served attached m d w g n warn
  have standing : ∀ code, (s.takeRequest m code).supervisorStanding m = none := fun _ =>
    State.supervisorStanding_of_attached attached
  have timing := State.setTimingRule_eq (standing 0x41)
  simp only [State.argDivider_takeRequest, State.argWarnLevel_takeRequest, State.argGraceLength_takeRequest] at timing
  have fill := State.setFillRule_eq (standing 0x43)
  simp only [State.argFill_takeRequest, State.argRunLength_takeRequest] at fill
  refine ⟨fun zero => ?_, fun positive => ?_, fun outside => ?_, fun low high => ?_⟩
  · exact State.answeredOnly_of_request (r := .setTiming) served (timing.trans (if_pos zero))
  · have frame := (s.takeRequest m 0x41).retimed_frame d w g
    obtain ⟨_, _, run, answered⟩ := State.answered_of_request (r := .setTiming) served (timing.trans (if_neg positive))
      (by rw [frame]; rfl)
    refine ⟨_, run, by rw [frame]; rfl, fun same => ?_, fun changed k => ?_, answered⟩
    · exact State.slots_retimed_of_same (s := s.takeRequest m 0x41) same
    · have changed' : w ≠ (s.takeRequest m 0x41).time.warnLevel := changed
      have lease := State.lease_retimed_of_changed (d := d) (g := g) changed' k
      refine ⟨State.gen_retimed_of_changed (d := d) (g := g) changed' k, fun free => ?_,
        fun l holds => ⟨fun o tag x c hold => ?_, fun es hold => ?_, fun notHeld => ?_⟩⟩
      · exact lease.trans (congrArg _ free)
      all_goals
        refine lease.trans ((congrArg _ holds).trans (congrArg some ?_))
        dsimp only
      · rw [hold]; rfl
      · rw [hold]; rfl
      · rw [Hold.setWarned_of_not_held notHeld]
  · exact State.answeredOnly_of_request (r := .setFill) served (fill.trans (if_pos outside))
  · have inside : ¬(n = 0 ∨ 64 < n) := by omega
    obtain ⟨_, _, run, answered⟩ := State.answered_of_request (r := .setFill) served (fill.trans (if_neg inside)) rfl
    exact ⟨_, run, rfl, answered⟩

end Sys2Proof.Proofs
end

section
/-! PROOF. SET POOL (R9 to R13) and SOFT RESET (R142). -/

namespace Sys2Proof.Machine

/-- A policy code that Table 1-3 does not have is 3. -/
theorem Policy.ofCode_eq_none_iff {code : Nat} (two_bits : code < 4) : Policy.ofCode code = none ↔ code = 3 := by
  interval_cases code <;> simp [Policy.ofCode]

/-- The policy code of SET POOL has two bits. -/
theorem WindowSlot.policy_lt (w : WindowSlot) : w.poolArgs.policy < 4 := BitVec.isLt _

namespace State

variable {s : State} {a : PoolArgs} {m : Mid}

/-! ### The rows of SET POOL's refusal -/

/-- The answer to a failed check of Table 1-5 or R12: its number, and the pool where the check reports one. -/
def badConfig (check : Nat × Nat) : Answer := .items .badConfig check.1 check.2

/-- The checks of Table 1-5 and R12 row by row: a test of the search is a row of the refusal. -/
theorem firstOf_badConfig {p c : Prop} [Decidable c] {x : Nat × Nat} {check : Option (Nat × Nat)} {last : Option Answer}
    {rows : List (Prop × Answer)} (row : p ↔ c)
    (rest : FirstOf rows (check.map badConfig = some ·) (check.map badConfig = last)) :
    FirstOf ((p, badConfig x) :: rows) ((if c then some x else check).map badConfig = some ·)
      ((if c then some x else check).map badConfig = last) := by
  refine ⟨fun h => by rw [if_pos (row.1 h), Option.map_some], fun h => ?_⟩
  rw [if_neg (mt row.2 h)]
  exact rest

/-- The answer of the last check of R12: the pool that the extent meets. -/
def overlapRefusal (q : Option PoolIx) : Option Answer := q.map fun q => badConfig (7, q.val)

/-- The pool that the last check of R12 finds, where the record is to be enabled. -/
def overlapped (s : State) (a : PoolArgs) : Option PoolIx :=
  if a.enabled = true then s.poolMeeting a.pool a.base.toNat a.top else none

/-- The rows of R10 to R12, and behind them the check of the other pools. -/
theorem setPoolRefusal_rows (s : State) (policy : a.policy < 4) :
    FirstOf
      [ (s.countLeases (Lease.inPool a.pool) ≠ 0 ∨ s.entriesIn a.pool ≠ 0,
          .items .poolBusy (s.countLeases (Lease.inPool a.pool)) (s.entriesIn a.pool)
            (slotCode (s.findLease (Lease.inPool a.pool)))),
        (a.size = 0 ∨ 65536 < a.size, badConfig (1, 0)),
        (a.base.toNat % a.granule.bytes ≠ 0, badConfig (2, 0)), (2 ^ 32 < a.top, badConfig (3, 0)),
        (a.policy = 3, badConfig (4, 0)), (a.maxTerm = 0, badConfig (5, 0)),
        (a.enabled = true ∧ a.base.toNat < s.windowBase + 256 ∧ s.windowBase < a.top, badConfig (6, 0)) ]
      (setPoolRefusal s a = some ·) (setPoolRefusal s a = overlapRefusal (s.overlapped a)) := by
  refine ⟨fun busy => by simp only [setPoolRefusal, poolBusy, if_pos busy], fun idle => ?_⟩
  have checks : setPoolRefusal s a = (poolCheck s a).map badConfig := by
    simp only [setPoolRefusal, poolBusy, if_neg idle]
    rfl
  rw [checks, poolCheck]
  refine firstOf_badConfig Iff.rfl <| firstOf_badConfig Iff.rfl <| firstOf_badConfig Iff.rfl <|
    firstOf_badConfig (Policy.ofCode_eq_none_iff policy).symm <| firstOf_badConfig Iff.rfl ?_
  by_cases enabled : a.enabled = true
  · rw [if_neg (by rw [enabled]; exact Bool.false_ne_true), overlapped, if_pos enabled]
    refine firstOf_badConfig ?_ ?_
    · simp only [enabled, true_and, meetsWindow, spansMeet, Bool.and_eq_true, decide_eq_true_eq]
    · cases s.poolMeeting a.pool a.base.toNat a.top <;> rfl
  · rw [if_pos (by rw [Bool.not_eq_true] at enabled; rw [enabled]; rfl), overlapped, if_neg enabled]
    exact ⟨fun h => absurd h.1 enabled, fun _ => rfl⟩

/-- The extent of the record meets another enabled pool. -/
def Meets (s : State) (a : PoolArgs) (q : PoolIx) : Prop :=
  q ≠ a.pool ∧ (s.pool q).enabled = true ∧ spansMeet a.base.toNat a.top (s.pool q).base.toNat (s.pool q).top = true

/-- The test of one pool in the search for an overlap. -/
theorem meets_iff {q : PoolIx} :
    (q ≠ a.pool && (s.pool q).enabled && spansMeet a.base.toNat a.top (s.pool q).base.toNat (s.pool q).top) = true ↔
      s.Meets a q := by
  simp [Meets, and_assoc]

/-- The lowest pool that the extent meets is the one the check finds. -/
theorem overlapped_of_lowest {q : PoolIx} (enabled : a.enabled = true) (met : s.Meets a q)
    (lowest : ∀ p, p < q → ¬s.Meets a p) : s.overlapped a = some q := by
  rw [overlapped, if_pos enabled]
  simp only [poolMeeting, allPools, List.finRange, List.find?_ofFn_eq_some]
  exact ⟨meets_iff.2 met, q, rfl, fun p below => mt meets_iff.1 (lowest p below)⟩

/-- Without one it finds none. -/
theorem overlapped_of_none (apart : a.enabled = true → ∀ q, ¬s.Meets a q) : s.overlapped a = none := by
  unfold overlapped
  split
  · next enabled => exact List.find?_eq_none.2 fun q _ => mt meets_iff.1 (apart enabled q)
  · rfl

/-- SET POOL past its standing checks (R9 to R13). -/
theorem setPoolRule_eq (standing : s.supervisorStanding m = none) :
    setPoolRule s m =
      s.unlessRefused (setPoolRefusal s (s.win m).poolArgs)
        (s.setPool (s.win m).poolArgs.pool (s.win m).poolArgs.record, .items .ok ((s.win m).poolArgs.top - 1)) := by
  rw [setPoolRule, standing, unlessRefused_none]

/-- An accepted record has a policy of Table 1-3. -/
theorem exists_policy_of_accepted (accepted : setPoolRefusal s a = none) :
    ∃ policy, Policy.ofCode a.policy = some policy ∧ a.record.policy = policy := by
  cases policy : Policy.ofCode a.policy with
  | some x => exact ⟨x, rfl, by rw [PoolArgs.record, policy]; rfl⟩
  | none =>
    exfalso
    revert accepted
    unfold setPoolRefusal poolCheck
    cases poolBusy s a.pool with
    | some b => exact nofun
    | none =>
      dsimp only
      repeat' split
      all_goals exact nofun

/-! ### SOFT RESET -/

theorem win_softReset (s : State) (n : Mid) : s.softReset.win n = (s.win n).softReset := by
  simp [softReset, win]

/-- After a soft reset no master has a pending item (R144, R142). -/
theorem atn_softReset (s : State) (n : Mid) : s.softReset.atn n = false := by
  have orphan : (s.softReset.master n).orphan = none := by rw [master_softReset]; rfl
  have notices : s.softReset.countLeases (fun l => l.notices[n].isSome) = 0 :=
    countLeases_eq_zero_iff.2 fun k l holds => by
      obtain ⟨_, _, _, _, _, empty⟩ := lease_softReset holds
      rw [empty, noticeSet_empty_get]
      rfl
  have items : s.softReset.pendingItems n = 0 := by
    rw [pendingItems, orphan, notices, queue_softReset, list_softReset]
    split <;> rfl
  rw [atn, items]
  rfl

theorem softReset_frame (s : State) :
    s.softReset =
      { s with
        slots := s.softReset.slots
        queue := []
        masters := s.softReset.masters
        scrub := { s.scrub with list := [], breq := false, run := none, flight := none }
        window := s.softReset.window
        cause := .soft } := rfl

end State

/-- A SHARED lease goes at a soft reset (Table 2-7). -/
theorem Slot.softReset_of_shared {x : Slot} {l : Lease} (holds : x.lease = some l) (shared : l.hold.mode = .shared) :
    x.softReset.lease = none := by
  obtain ⟨es, hold⟩ := Hold.mode_shared_iff.1 shared
  simp only [Slot.softReset, holds, hold]

/-- An EXCLUSIVE lease is TAINTED after one, whoever held it (Table 2-7). -/
theorem Slot.softReset_of_exclusive {x : Slot} {l : Lease} {o : Mid} {tag : Tag} (holds : x.lease = some l)
    (exclusive : l.hold.mode = .exclusive) (owner : l.hold.ownerItems = (o.val, tag.toNat)) :
    x.softReset.lease = some { range := l.range, hold := .tainted o tag, notices := NoticeSet.empty } := by
  have same : ∀ o' tag', (Fin.val o', BitVec.toNat tag') = (o.val, tag.toNat) → o' = o ∧ tag' = tag :=
    fun o' tag' e => ⟨Fin.ext (Prod.mk.inj e).1, BitVec.eq_of_toNat_eq (Prod.mk.inj e).2⟩
  cases hold : l.hold with
  | shared es => rw [hold] at exclusive; cases exclusive
  | held o' tag' n c | grace o' tag' n c left | tainted o' tag' | scrub o' tag' =>
    rw [hold] at owner
    obtain ⟨rfl, rfl⟩ := same o' tag' owner
    simp only [Slot.softReset, holds, hold, Hold.taint]

end Sys2Proof.Machine

namespace Sys2Proof.Proofs

open Sys2Proof.Machine

/-- Settles O30: the rows of the refusal, then the search for a pool that the extent meets. -/
theorem setPoolReplaces : Obligations.SetPoolReplaces := by
  intro s served attached m a leases entries top meets
  have standing : (s.takeRequest m 0x40).supervisorStanding m = none := State.supervisorStanding_of_attached attached
  have rule := State.setPoolRule_eq standing
  rw [State.poolArgs_takeRequest] at rule
  have refused : ∀ {x}, setPoolRefusal s a = some x → s.AnsweredOnly (.setPool m) m 0x40 x := fun refusal =>
    State.answeredOnly_of_request (r := .setPool) served
      (rule.trans (by rw [show setPoolRefusal (s.takeRequest m 0x40) a = some _ from refusal]; rfl))
  refine (State.setPoolRefusal_rows s (s.win m).policy_lt).mono (fun _ => refused) fun last => ⟨fun q enabled met lowest => ?_,
    fun apart => ?_⟩
  · rw [State.overlapped_of_lowest enabled met lowest] at last
    exact refused last
  · rw [State.overlapped_of_none apart] at last
    obtain ⟨policy, code, record⟩ := State.exists_policy_of_accepted last
    rw [show setPoolRefusal (s.takeRequest m 0x40) (s.win m).poolArgs = none from last, State.unlessRefused_none] at rule
    obtain ⟨_, _, run, answered⟩ := State.answered_of_request (r := .setPool) served rule rfl
    refine ⟨_, policy, run, rfl, code, ?_, fun q other => ?_, answered⟩
    · rw [← record]
      exact ((s.takeRequest m 0x40).pool_setPool a.pool a.pool a.record).trans (if_pos rfl)
    · exact ((s.takeRequest m 0x40).pool_setPool a.pool q a.record).trans (if_neg other.symm)

/-- Settles O37. -/
theorem softResetResets : Obligations.SoftResetResets := by
  intro s served attached m
  have standing : (s.takeRequest m 0x5F).supervisorStanding m = none := State.supervisorStanding_of_attached attached
  obtain ⟨noReset, free⟩ := served
  have rule : softResetRule (s.takeRequest m 0x5F) m = ((s.takeRequest m 0x5F).softReset, .bare .ok) := by
    rw [softResetRule, standing, State.unlessRefused_none]
  have serves := State.serveRequest_of_served s (m := m) (code := 0x5F) (body := softResetRule) free noReset
  rw [rule] at serves
  obtain ⟨u, reset⟩ : ∃ u, u = (s.takeRequest m 0x5F).softReset := ⟨_, rfl⟩
  have frame := (s.takeRequest m 0x5F).softReset_frame
  rw [← reset] at serves frame
  have slot : ∀ k, u.slot k = (s.slot k).softReset := fun k => by rw [reset, State.slot_softReset, State.slot_takeRequest]
  have win : ∀ n, u.win n = ((s.takeRequest m 0x5F).win n).softReset := fun n => by rw [reset, State.win_softReset]
  refine ⟨_, congrArg Host.Outcome.next serves, ?_, fun k => ⟨?_, fun none_held => ?_, fun l holds =>
    ⟨fun shared => ?_, fun o tag exclusive owner => ?_⟩⟩, fun n => ?_, fun n => ?_, ?_, fun n other => ?_⟩
  · rw [frame]; rfl
  · exact (congrArg Slot.gen (slot k)).trans (State.Slot.gen_softReset _)
  · refine (congrArg Slot.lease (slot k)).trans ?_
    rw [State.lease] at none_held
    rw [Slot.softReset, none_held]
    exact none_held
  · exact (congrArg Slot.lease (slot k)).trans (Slot.softReset_of_shared holds shared)
  · exact (congrArg Slot.lease (slot k)).trans (Slot.softReset_of_exclusive holds exclusive owner)
  · have record : u.master n = (s.master n).softReset := by rw [reset, State.master_softReset, State.master_takeRequest]
    exact record
  · have silent : u.atn n = false := by rw [reset, State.atn_softReset]
    exact silent
  · rw [State.win_setBus, State.win_answer, if_pos rfl, win, State.win_takeRequest, if_pos rfl]
    rfl
  · rw [State.win_setBus, State.win_answer, if_neg other.symm, win, State.win_takeRequest, if_neg other.symm]
    rfl

end Sys2Proof.Proofs
end

section
/-! PROOF. DETACH (R131): what the purge leaves, slot by slot and master by master. -/

namespace Sys2Proof.Machine

/-- `m` stands alone on the sharer list. -/
def Lease.SharedByOnly (m : Mid) (l : Lease) : Prop := l.hold.shares m = true ∧ ∀ e ∈ l.hold.sharers, e.master = m

/-- The sharer list without `m` is empty when `m` stands alone on it. -/
theorem Hold.others_eq_nil_iff {h : Hold} {m : Mid} : h.others m = [] ↔ ∀ e ∈ h.sharers, e.master = m := by
  simp [Hold.others, List.filter_eq_nil_iff]

/-- A DETACH of `m` frees the lease: `m` owns it, or stands alone on its sharer list. -/
def Lease.DetachFrees (m : Mid) (l : Lease) : Prop := l.hold.owner? = some m ∨ l.SharedByOnly m

namespace State

variable {s t u : State} {m n : Mid} {k : SlotIx} {l : Lease}

/-! ### The orphan fields after a scan -/

theorem orphanAlong_congr (handle : t.handle = s.handle) : t.orphanAlong = s.orphanAlong := by
  funext moved ks o
  simp only [orphanAlong, handle]

/-- A scan that takes no held count of `n` changes its orphan field alone. -/
theorem Scans.master_of_no_loss {effect : SlotIx → SlotEffect} (h : s.Scans allSlots effect u)
    (kept : ∀ k, (effect k).lost n = 0) :
    u.master n =
      { s.master n with orphan := s.orphanAlong (fun k => (effect k).moved n) allSlots (s.master n).orphan } := by
  have none_lost : (allSlots.map fun k => (effect k).lost n).sum = 0 := by
    simp only [kept, List.map_const', List.sum_replicate, smul_zero]
  rw [h.master n, none_lost, Nat.sub_zero]

open Classical in
/-- The notice sets of the leases that have the property. -/
noncomputable def freedWhere (s : State) (p : Lease → Prop) (k : SlotIx) : Option NoticeSet :=
  (s.lease k).bind fun l => if p l then some l.notices else none

theorem freedWhere_eq_some {p : Lease → Prop} {ns : NoticeSet} :
    s.freedWhere p k = some ns ↔ ∃ l, s.lease k = some l ∧ p l ∧ ns = l.notices := by
  cases holds : s.lease k with
  | none => simp [freedWhere, holds]
  | some l => by_cases h : p l <;> simp [freedWhere, holds, h, eq_comm]

theorem freedWhere_of_pos {p : Lease → Prop} (holds : s.lease k = some l) (h : p l) :
    s.freedWhere p k = some l.notices := freedWhere_eq_some.2 ⟨l, holds, h, rfl⟩

theorem freedWhere_of_neg {p : Lease → Prop} (kept : ∀ l, s.lease k = some l → ¬p l) : s.freedWhere p k = none := by
  cases f : s.freedWhere p k with
  | none => rfl
  | some ns =>
    obtain ⟨l, holds, h, -⟩ := freedWhere_eq_some.1 f
    exact absurd h (kept l holds)

/-! ### Ended memberships -/

/-- The last membership frees the slot (R31). -/
theorem leaveEffect_of_last (only : l.SharedByOnly m) :
    leaveEffect m (some l) =
      { after := none, lost := fun n => if n = m then 1 else 0, moved := fun n => l.notices[n] } := by
  simp only [leaveEffect, if_pos only.1, if_pos (Hold.others_eq_nil_iff.2 only.2)]

/-- Another leaves the rest of the list (R30). -/
theorem leaveEffect_of_more (shares : l.hold.shares m = true) (more : ¬l.SharedByOnly m) :
    leaveEffect m (some l) =
      { after := some { l with hold := .shared (l.hold.others m) }
        lost := fun n => if n = m then 1 else 0
        moved := noMove } := by
  have others : ¬l.hold.others m = [] := fun none_left => more ⟨shares, Hold.others_eq_nil_iff.1 none_left⟩
  simp only [leaveEffect, if_pos shares, if_neg others]

theorem leaveEffect_of_not (shares : l.hold.shares m = false) : leaveEffect m (some l) = .unchanged (some l) := by
  simp only [leaveEffect, shares, Bool.false_eq_true, if_false]

/-! ### The lease table of a DETACH -/

/-- A slot that the DETACH of `m` frees (R131). -/
theorem detachEffect_of_freed (frees : l.DetachFrees m) :
    (detachEffect m (some l)).after = none ∧ ∀ n, n ≠ m →
      (detachEffect m (some l)).lost n = 0 ∧ (detachEffect m (some l)).moved n = l.notices[n] := by
  by_cases owner : l.hold.owner? = some m
  · rw [detachEffect, if_pos owner]
    refine ⟨rfl, fun n other => ⟨?_, rfl⟩⟩
    obtain ⟨-, -, -, holders⟩ := taint_of_owner owner
    dsimp only
    rw [holders, List.count_singleton, if_neg (by simpa using other.symm)]
  · rw [detachEffect, if_neg owner, leaveEffect_of_last (frees.resolve_left owner)]
    exact ⟨rfl, fun n other => ⟨if_neg other, rfl⟩⟩

/-- A slot that it leaves a lease, without `m`'s entry where it has one (R131). -/
theorem detachEffect_of_kept (keeps : ¬l.DetachFrees m) :
    (detachEffect m (some l)).after =
        some { l with hold := if l.hold.shares m = true then .shared (l.hold.others m) else l.hold } ∧
      ∀ n, n ≠ m → (detachEffect m (some l)).lost n = 0 ∧ (detachEffect m (some l)).moved n = none := by
  obtain ⟨owner, more⟩ := not_or.1 keeps
  by_cases shares : l.hold.shares m = true
  · rw [detachEffect, if_neg owner, leaveEffect_of_more shares more, if_pos shares]
    exact ⟨rfl, fun n other => ⟨if_neg other, rfl⟩⟩
  · rw [detachEffect, if_neg owner, leaveEffect_of_not (Bool.not_eq_true _ ▸ shares), if_neg shares]
    exact ⟨rfl, fun _ _ => ⟨rfl, rfl⟩⟩

/-- What the purge makes of each lease. -/
theorem lease_detachTable (s : State) (m : Mid) (k : SlotIx) :
    (s.detachTable m).lease k =
      (detachEffect m ((s.lease k).map fun l => { l with notices := l.notices.set m none })).after := by
  rw [(scans_detachTable s m).lease_all, dropAllNotices_eq, lease_silence]

/-- What it does to another master's record: the notices of the slots it frees move to the orphan field (R34). -/
theorem master_detachTable (other : n ≠ m) :
    (s.detachTable m).master n =
      { s.master n with
        orphan :=
          s.orphanAlong (fun k => (s.freedWhere (Lease.DetachFrees m) k).bind fun ns => ns[n]) allSlots
            (s.master n).orphan } := by
  have scan := scans_detachTable s m
  have each : ∀ k, (detachEffect m ((s.dropAllNotices m).lease k)).lost n = 0 ∧
      (detachEffect m ((s.dropAllNotices m).lease k)).moved n =
        (s.freedWhere (Lease.DetachFrees m) k).bind fun ns => ns[n] := by
    intro k
    rw [dropAllNotices_eq, lease_silence]
    cases holds : s.lease k with
    | none => rw [freedWhere_of_neg fun l has => by rw [holds] at has; cases has]; exact ⟨rfl, rfl⟩
    | some l =>
      have kept_notice : (l.notices.set m none)[n] = l.notices[n] := by rw [notices_set_get, if_neg other.symm]
      rw [Option.map_some]
      by_cases frees : l.DetachFrees m
      · obtain ⟨-, effect⟩ := detachEffect_of_freed (l := { l with notices := l.notices.set m none }) frees
        obtain ⟨lost, moved⟩ := effect n other
        rw [freedWhere_of_pos holds frees, lost, moved]
        exact ⟨rfl, kept_notice⟩
      · obtain ⟨-, effect⟩ := detachEffect_of_kept (l := { l with notices := l.notices.set m none }) frees
        obtain ⟨lost, moved⟩ := effect n other
        rw [freedWhere_of_neg fun l' has => by rw [holds] at has; obtain rfl := Option.some.inj has; exact frees, lost,
          moved]
        exact ⟨rfl, rfl⟩
  rw [scan.master_of_no_loss fun k => (each k).1]
  have moved : (fun k => (detachEffect m ((s.dropAllNotices m).lease k)).moved n) =
      fun k => (s.freedWhere (Lease.DetachFrees m) k).bind fun ns => ns[n] := funext fun k => (each k).2
  have record : (s.dropAllNotices m).master n = s.master n := by rw [dropAllNotices_eq, master_silence, if_neg other]
  have handle : (s.dropAllNotices m).handle = s.handle := by
    funext k; rw [dropAllNotices_eq, State.handle, gen_silence]; rfl
  rw [moved, record, orphanAlong_congr handle]

/-! ### What a DETACH leaves before its grant pass -/

theorem detachTable_frame (s : State) (m : Mid) :
    s.detachTable m = { s with slots := (s.detachTable m).slots, masters := (s.detachTable m).masters } := by
  rw [(scans_detachTable s m).frame, dropAllNotices_eq, silence_frame]

/-- The scrub engine once `m` is DETACHED: the supervisor's finished entries go (R131). -/
theorem scrub_detachClean (s : State) (m : Mid) :
    (s.detachClean m).scrub =
      if m = s.supmid then { s.scrub with list := s.scrub.list.filter fun e => e.state.live } else s.scrub := by
  have live : (fun e : ScrubEntry => !e.finished) = fun e => e.state.live := by
    funext e; rw [ScrubEntry.finished, Bool.not_not]
  have scrub : (s.detachTable m).scrub = s.scrub := by rw [detachTable_frame]
  by_cases supervisor : m = s.supmid
  · rw [detachClean, if_pos (by simpa [isSupervisor] using supervisor), if_pos supervisor]
    generalize s.detachTable m = t at scrub ⊢
    change t.dropFinished.scrub = _
    rw [dropFinished, setScrub_scrub, scrub, live]
  · rw [detachClean, if_neg (by simpa [isSupervisor] using supervisor), if_neg supervisor]
    generalize s.detachTable m = t at scrub ⊢
    exact scrub

theorem detachClean_frame (s : State) (m : Mid) :
    s.detachClean m =
      { s with
        slots := (s.detachClean m).slots
        queue := (s.detachClean m).queue
        masters := (s.detachClean m).masters
        scrub := (s.detachClean m).scrub } := by
  have frame := s.detachTable_frame m
  unfold detachClean
  generalize s.detachTable m = t at frame ⊢
  rw [frame]
  split <;> rfl

@[simp] theorem slot_detachClean (s : State) (m : Mid) (k : SlotIx) :
    (s.detachClean m).slot k = (s.detachTable m).slot k := by
  unfold detachClean
  generalize s.detachTable m = t
  split <;> rfl

@[simp] theorem lease_detachClean (s : State) (m : Mid) (k : SlotIx) :
    (s.detachClean m).lease k = (s.detachTable m).lease k := by
  rw [lease, slot_detachClean]; rfl

@[simp] theorem queue_detachClean (s : State) (m : Mid) :
    (s.detachClean m).queue = s.queue.filter fun e => e.claim.master ≠ m := by
  have queue : (s.detachTable m).queue = s.queue := by rw [detachTable_frame]
  rw [← queue]
  unfold detachClean
  generalize s.detachTable m = t
  split <;> rfl

theorem master_detachClean (s : State) (m n : Mid) :
    (s.detachClean m).master n =
      if n = m then { (s.detachTable m).master m with state := .detached, held := 0, waiting := 0 }
      else (s.detachTable m).master n := by
  unfold detachClean
  generalize s.detachTable m = t
  split <;> exact master_strip _ m _ n

/-- The record of the master that has DETACHED (R131). -/
theorem master_detachClean_self (unlent : ∀ k l, s.lease k = some l → m ∉ l.hold.chain) :
    (s.detachClean m).master m =
      { s.master m with state := .detached, held := 0, waiting := 0, orphan := none } := by
  have record := (scans_detachTable s m).master m
  have orphan := (clearOf_detachTable unlent).orphan
  rw [record] at orphan
  rw [master_detachClean, if_pos rfl, record]
  dsimp only at orphan ⊢
  rw [orphan, dropAllNotices_eq, master_silence, if_pos rfl]

/-- DETACH past its checks (R131). -/
theorem detachRule_of_accepted (standing : s.standing m = none)
    (unlent : ∀ k l, s.lease k = some l → (l.hold.owner? = some m → l.hold.chain = []) ∧ m ∉ l.hold.chain) :
    detachRule s m =
      ((s.detachClean m).grantPass,
        .items .ok (s.ownedCount m) (s.memberCount m) (s.queue.countP fun e => e.claim.master = m)) := by
  have accepted : detachRefusal s m = none := by
    have noneLent : s.findLease (fun l => l.ownedBy m && l.hold.chain ≠ []) = none :=
      findLease_of_none (fun k l holds lent => lent.2 ((unlent k l holds).1 lent.1)) Lease.lentBy_iff
    have noFrame : s.findLease (fun l => l.hold.chain.contains m) = none :=
      findLease_of_none (p := fun l => m ∈ l.hold.chain) (fun k l holds => (unlent k l holds).2) List.contains_iff_mem
    simp only [detachRefusal, noneLent, noFrame, Option.map_none]
  rw [detachRule, standing, accepted, unlessRefused_none, unlessRefused_none, detach_eq]

end State

end Sys2Proof.Machine

namespace Sys2Proof.Proofs

open Sys2Proof.Machine

/-- Settles O13: the purge read off the scan of the slots. -/
theorem detachPurges : Obligations.DetachPurges := by
  intro s m served attached unlent ends
  obtain ⟨x, hx⟩ : ∃ x, x = s.takeRequest m 0x02 := ⟨_, rfl⟩
  have standing : x.standing m = none := by rw [hx]; exact State.standing_of_attached attached
  have unlent' : ∀ k l, x.lease k = some l → (l.hold.owner? = some m → l.hold.chain = []) ∧ m ∉ l.hold.chain := by
    rw [hx]; exact unlent
  have rule := State.detachRule_of_accepted standing unlent'
  have frame := x.detachClean_frame m
  have win : (x.detachClean m).grantPass.win = x.win := by rw [State.win_grantPass, frame]; rfl
  rw [hx] at rule win
  obtain ⟨w, b, run, answered⟩ := State.answered_of_request (r := .detach) served rule win
  rw [← hx] at run
  have lease : ∀ k l, s.lease k = some l → (x.detachClean m).lease k =
      (State.detachEffect m (some { l with notices := l.notices.set m none })).after := fun k l holds => by
    rw [State.lease_detachClean, State.lease_detachTable, hx, State.lease_takeRequest, holds, Option.map_some]
  have others : ∀ n, n ≠ m → (x.detachClean m).master n =
      { s.master n with
        orphan :=
          s.orphanAlong (fun k => (s.freedWhere (Lease.DetachFrees m) k).bind fun ns => ns[n]) allSlots
            (s.master n).orphan } := fun n other => by
    rw [State.master_detachClean, if_neg other, State.master_detachTable other, hx]
    rfl
  refine ⟨_, x.detachClean m, run, rfl, answered, by rw [frame, hx]; rfl, fun k => ⟨?_, fun free => ?_⟩,
    fun k l holds frees => ?_, fun k l holds keeps => ?_, ?_, ?_, ?_, fun n other => ⟨?_, ?_⟩⟩
  · rw [State.slot_detachClean, (State.scans_detachTable x m).gen, State.dropAllNotices_eq, State.gen_silence, hx,
      State.slot_takeRequest]
  · rw [State.lease_detachClean, State.lease_detachTable, hx, State.lease_takeRequest, free]
    rfl
  · rw [lease k l holds]
    exact (State.detachEffect_of_freed (l := { l with notices := l.notices.set m none }) frees).1
  · rw [lease k l holds]
    exact (State.detachEffect_of_kept (l := { l with notices := l.notices.set m none }) keeps).1
  · rw [State.queue_detachClean, hx, State.queue_takeRequest]
  · rw [State.scrub_detachClean, hx, State.supmid_takeRequest, State.scrub_takeRequest]
  · rw [State.master_detachClean_self fun k l holds => (unlent' k l holds).2, hx, State.master_takeRequest]
  · rw [others n other]
  · refine ⟨s.freedWhere (Lease.DetachFrees m), fun k ns => State.freedWhere_eq_some, ?_⟩
    exact State.orphansOf_of_along (congrArg Master.orphan (others n other)) fun _ => rfl

end Sys2Proof.Proofs
end

section
/-! PROOF. The fence (R137, R138), FENCE (R136) and SET MASTER (R134). -/

namespace Sys2Proof.Machine

namespace State

variable {s t u : State} {m n v o : Mid} {k : SlotIx} {l : Lease}

/-! ### The three scans of a fence, lease by lease -/

/-- From its start a fence hears the ATTACHED masters but the one it fences. -/
theorem raised_fenceStart (s : State) (v : Mid) (ns : NoticeSet) (x : NoticeKind) (ms : List Mid) (n : Mid) :
    ((s.fenceStart v).raised ns x ms)[n] = if n ∈ ms ∧ n ≠ v ∧ s.attached n = true then some x else ns[n] := by
  simp only [raised_get, attached_fenceStart, Bool.and_eq_true, decide_eq_true_eq]

theorem lease_fenceStart (holds : s.lease k = some l) :
    (s.fenceStart v).lease k = some { l with notices := l.notices.set v none } := by
  rw [fenceStart, lease_silence, holds, Option.map_some]

/-- A lease of the fenced master's own, once tainted (R137). -/
def fencedLease (s : State) (v : Mid) (l : Lease) : Lease :=
  { l with
    hold := l.hold.taint
    notices :=
      (s.fenceStart v).raised ((s.fenceStart v).raised (l.notices.set v none) .revoked l.hold.chain) .tainted
        [(s.fenceStart v).supmid] }

theorem lease_fenceTaints_of_owner (holds : s.lease k = some l) (owner : l.hold.owner? = some v) :
    (s.fenceTaints v).lease k = some (s.fencedLease v l) := by
  rw [(scans_fenceTaints s v).lease_all, fenceOwnedEffect, lease_fenceStart holds]
  dsimp only
  rw [if_pos owner]
  rfl

theorem lease_fenceTaints_of_other (holds : s.lease k = some l) (other : l.hold.owner? ≠ some v) :
    (s.fenceTaints v).lease k = some { l with notices := l.notices.set v none } := by
  rw [(scans_fenceTaints s v).lease_all, fenceOwnedEffect, lease_fenceStart holds]
  dsimp only
  rw [if_neg other]
  rfl

theorem lease_fenceTaints_of_none (free : s.lease k = none) : (s.fenceTaints v).lease k = none := by
  have start : (s.fenceStart v).lease k = none := by rw [fenceStart, lease_silence, free]; rfl
  rw [(scans_fenceTaints s v).lease_all, fenceOwnedEffect, start]
  rfl

theorem lease_fenceLeaves (s : State) (v : Mid) (k : SlotIx) :
    (s.fenceLeaves v).lease k = (leaveEffect v ((s.fenceTaints v).lease k)).after :=
  (scans_fenceLeaves s v).lease_all k

/-- What the third scan leaves of a lease in whose chain `v` does not stand. -/
theorem lease_fenceClean_of_no_frame (holds : (s.fenceLeaves v).lease k = some l) (noFrame : v ∉ l.hold.chain) :
    (s.fenceClean v).lease k = some l := by
  rw [fenceClean, lease_strip, (scans_fenceCuts s v).lease_all, fenceChainEffect, holds]
  dsimp only
  rw [if_neg noFrame]
  rfl

theorem lease_fenceClean_of_none (free : (s.fenceLeaves v).lease k = none) : (s.fenceClean v).lease k = none := by
  rw [fenceClean, lease_strip, (scans_fenceCuts s v).lease_all, fenceChainEffect, free]
  rfl

/-- A lease whose chain is cut at `v` (R138), `ns` being its notices before the cut. -/
def cutLease (s : State) (v o : Mid) (l : Lease) (ns : NoticeSet) : Lease :=
  { l with
    hold := l.hold.withChain (framesBefore v l.hold.chain)
    notices :=
      (s.fenceStart v).raised
        ((s.fenceStart v).raised ns .returned [(framesBefore v l.hold.chain).getLast?.getD o]) .recalled
        (framesAfter v l.hold.chain) }

/-- The current user of a hold with a replaced chain (R28). -/
theorem currentUser_withChain {h : Hold} {c : List Mid} (owner : h.owner? = some o) :
    (h.withChain c).currentUser? = some (c.getLast?.getD o) := by
  cases h with
  | held o' g n c' => cases owner; rfl
  | grace o' g n c' left => cases owner; rfl
  | tainted | scrub | shared => cases owner

theorem attached_fenceLeaves (s : State) (v : Mid) : (s.fenceLeaves v).attached = (s.fenceStart v).attached :=
  (scans_fenceLeaves s v).attached.trans (scans_fenceTaints s v).attached

/-- What the third scan makes of one in whose chain `v` stands. -/
theorem lease_fenceClean_of_frame {ns : NoticeSet}
    (holds : (s.fenceLeaves v).lease k = some { l with notices := ns }) (owner : l.hold.owner? = some o)
    (frame : v ∈ l.hold.chain) : (s.fenceClean v).lease k = some (s.cutLease v o l ns) := by
  have raised : (s.fenceLeaves v).raised = (s.fenceStart v).raised := by
    funext ns x ms; exact raised_congr (attached_fenceLeaves s v) ns x ms
  rw [fenceClean, lease_strip, (scans_fenceCuts s v).lease_all, fenceChainEffect, holds]
  dsimp only
  rw [if_pos frame, currentUser_withChain owner, raised]
  rfl

/-! ### What a fence leaves, lease by lease -/

/-- An owned lease is tainted (R137). -/
theorem lease_fenceClean_of_owner (holds : s.lease k = some l) (owner : l.hold.owner? = some v) :
    (s.fenceClean v).lease k = some (s.fencedLease v l) := by
  obtain ⟨⟨g, taint⟩, -⟩ := taint_of_owner owner
  refine lease_fenceClean_of_no_frame ?_ (by rw [fencedLease, taint]; exact List.not_mem_nil)
  rw [lease_fenceLeaves, lease_fenceTaints_of_owner holds owner, leaveEffect_of_not (by rw [fencedLease, taint]; rfl)]
  rfl

/-- The last membership ends with the lease (R31). -/
theorem lease_fenceClean_of_last (holds : s.lease k = some l) (only : l.SharedByOnly v) :
    (s.fenceClean v).lease k = none := by
  obtain ⟨es, shared⟩ := shared_of_shares only.1
  refine lease_fenceClean_of_none ?_
  rw [lease_fenceLeaves, lease_fenceTaints_of_other holds (by rw [shared]; exact nofun),
    leaveEffect_of_last (l := { l with notices := l.notices.set v none }) only]

/-- Another membership ends alone (R30). -/
theorem lease_fenceClean_of_more (holds : s.lease k = some l) (shares : l.hold.shares v = true)
    (more : ¬l.SharedByOnly v) :
    (s.fenceClean v).lease k =
      some { l with hold := .shared (l.hold.others v), notices := l.notices.set v none } := by
  obtain ⟨es, shared⟩ := shared_of_shares shares
  refine lease_fenceClean_of_no_frame ?_ List.not_mem_nil
  rw [lease_fenceLeaves, lease_fenceTaints_of_other holds (by rw [shared]; exact nofun),
    leaveEffect_of_more (l := { l with notices := l.notices.set v none }) shares more]

/-- Any other lease comes through the first two scans without `v`'s notice. -/
theorem lease_fenceLeaves_of_other (holds : s.lease k = some l) (other : l.hold.owner? ≠ some v)
    (shares : l.hold.shares v = false) :
    (s.fenceLeaves v).lease k = some { l with notices := l.notices.set v none } := by
  rw [lease_fenceLeaves, lease_fenceTaints_of_other holds other,
    leaveEffect_of_not (l := { l with notices := l.notices.set v none }) shares]
  rfl

/-- A FREE slot stays FREE. -/
theorem lease_fenceClean_of_free (free : s.lease k = none) : (s.fenceClean v).lease k = none :=
  lease_fenceClean_of_none (by rw [lease_fenceLeaves, lease_fenceTaints_of_none free]; rfl)

/-! ### What a fence leaves elsewhere -/

theorem fenceCuts_frame (s : State) (v : Mid) :
    s.fenceCuts v = { s with slots := (s.fenceCuts v).slots, masters := (s.fenceCuts v).masters } := by
  rw [(scans_fenceCuts s v).frame, (scans_fenceLeaves s v).frame, (scans_fenceTaints s v).frame, fenceStart,
    silence_frame]

theorem fenceClean_frame (s : State) (v : Mid) :
    s.fenceClean v =
      { s with
        slots := (s.fenceClean v).slots, queue := (s.fenceClean v).queue, masters := (s.fenceClean v).masters } := by
  have frame := s.fenceCuts_frame v
  rw [fenceClean, strip_frame]
  generalize s.fenceCuts v = t at frame ⊢
  rw [frame]

/-- A fence touches the slots, the queue and the master records alone. -/
theorem fenceMaster_frame (s : State) (v : Mid) :
    s.fenceMaster v =
      { s with
        slots := (s.fenceMaster v).slots, queue := (s.fenceMaster v).queue, masters := (s.fenceMaster v).masters } := by
  rw [fenceMaster_eq, grantPass_frame, fenceClean_frame]

theorem win_fenceMaster (s : State) (v : Mid) : (s.fenceMaster v).win = s.win := by
  have frame := s.fenceMaster_frame v
  generalize s.fenceMaster v = t at frame ⊢
  rw [frame]
  rfl

theorem queue_fenceClean (s : State) (v : Mid) :
    (s.fenceClean v).queue = s.queue.filter fun e => e.claim.master ≠ v := by
  rw [fenceClean, queue_strip, fenceCuts_frame]

theorem slot_strip (s : State) (m : Mid) (st : MasterState) (k : SlotIx) : (s.strip m st).slot k = s.slot k := rfl

theorem gen_fenceClean (s : State) (v : Mid) (k : SlotIx) : ((s.fenceClean v).slot k).gen = (s.slot k).gen := by
  rw [fenceClean, slot_strip, (scans_fenceCuts s v).gen, (scans_fenceLeaves s v).gen, (scans_fenceTaints s v).gen, fenceStart, gen_silence]

/-- The record of the fenced master (R137). -/
theorem master_fenceClean_self (s : State) (v : Mid) :
    (s.fenceClean v).master v =
      { s.master v with state := .fenced, held := 0, waiting := 0, orphan := none } := by
  have orphan := (clearOf_fenceCuts s v).orphan
  have record := (scans_fenceCuts s v).master v
  rw [record] at orphan
  dsimp only at orphan
  rw [fenceClean, master_strip, if_pos rfl, record]
  dsimp only
  rw [orphan, (scans_fenceLeaves s v).master v, (scans_fenceTaints s v).master v, fenceStart, master_silence, if_pos rfl]

/-- A scan that takes and moves nothing of `n`'s leaves its record. -/
theorem Scans.master_of_nothing {effect : SlotIx → SlotEffect} (h : s.Scans allSlots effect u)
    (kept : ∀ k, (effect k).lost n = 0 ∧ (effect k).moved n = none) : u.master n = s.master n := by
  rw [h.master_of_no_loss fun k => (kept k).1, orphanAlong_of_none fun k _ => (kept k).2]

/-- What the second scan takes and moves of another master's: the notices of the slots that become FREE. -/
theorem lost_leaveEffect_fenceTaints (other : n ≠ v) :
    (leaveEffect v ((s.fenceTaints v).lease k)).lost n = 0 ∧
      (leaveEffect v ((s.fenceTaints v).lease k)).moved n =
        (s.freedWhere (Lease.SharedByOnly v) k).bind fun ns => ns[n] := by
  cases holds : s.lease k with
  | none =>
    rw [lease_fenceTaints_of_none holds, freedWhere_of_neg fun l has => by rw [holds] at has; cases has]
    exact ⟨rfl, rfl⟩
  | some l =>
    have same : ∀ l', s.lease k = some l' → l' = l := fun l' has => Option.some.inj (has.symm.trans holds)
    have kept_notice : (l.notices.set v none)[n] = l.notices[n] := by rw [notices_set_get, if_neg other.symm]
    by_cases owner : l.hold.owner? = some v
    · obtain ⟨⟨g, taint⟩, exclusive, -⟩ := taint_of_owner owner
      have not_shared : ¬l.SharedByOnly v := fun only => by
        obtain ⟨es, shared⟩ := shared_of_shares only.1
        rw [shared] at exclusive; cases exclusive
      rw [lease_fenceTaints_of_owner holds owner, leaveEffect_of_not (by rw [fencedLease, taint]; rfl),
        freedWhere_of_neg fun l' has => same l' has ▸ not_shared]
      exact ⟨rfl, rfl⟩
    · rw [lease_fenceTaints_of_other holds owner]
      by_cases only : l.SharedByOnly v
      · rw [leaveEffect_of_last (l := { l with notices := l.notices.set v none }) only, freedWhere_of_pos holds only]
        exact ⟨if_neg other, kept_notice⟩
      · rw [freedWhere_of_neg fun l' has => same l' has ▸ only]
        by_cases shares : l.hold.shares v = true
        · rw [leaveEffect_of_more (l := { l with notices := l.notices.set v none }) shares only]
          exact ⟨if_neg other, rfl⟩
        · rw [leaveEffect_of_not (l := { l with notices := l.notices.set v none }) (Bool.not_eq_true _ ▸ shares)]
          exact ⟨rfl, rfl⟩

/-- Another's: the notices of the slots that the fence frees move to its orphan field (R34). -/
theorem master_fenceClean (other : n ≠ v) :
    (s.fenceClean v).master n =
      { s.master n with
        orphan :=
          s.orphanAlong (fun k => (s.freedWhere (Lease.SharedByOnly v) k).bind fun ns => ns[n]) allSlots
            (s.master n).orphan } := by
  have start : (s.fenceStart v).master n = s.master n := by rw [fenceStart, master_silence, if_neg other]
  have taints : (s.fenceTaints v).master n = s.master n := by
    refine ((scans_fenceTaints s v).master_of_nothing fun k => ?_).trans start
    rw [fenceOwnedEffect]
    split
    · exact ⟨rfl, rfl⟩
    · split
      · exact ⟨if_neg other, rfl⟩
      · exact ⟨rfl, rfl⟩
  have cuts : (s.fenceCuts v).master n = (s.fenceLeaves v).master n := by
    refine (scans_fenceCuts s v).master_of_nothing fun k => ?_
    rw [fenceChainEffect]
    split
    · exact ⟨rfl, rfl⟩
    · split <;> exact ⟨rfl, rfl⟩
  have each := fun k => lost_leaveEffect_fenceTaints (s := s) (k := k) other
  have moved : (fun k => (leaveEffect v ((s.fenceTaints v).lease k)).moved n) =
      fun k => (s.freedWhere (Lease.SharedByOnly v) k).bind fun ns => ns[n] := funext fun k => (each k).2
  have handle : (s.fenceTaints v).handle = s.handle := by
    funext k
    rw [State.handle, (scans_fenceTaints s v).gen, fenceStart, gen_silence]
    rfl
  rw [fenceClean, master_strip, if_neg other, cuts, (scans_fenceLeaves s v).master_of_no_loss fun k => (each k).1, moved,
    taints, orphanAlong_congr handle]

end State

end Sys2Proof.Machine

namespace Sys2Proof.Proofs

open Sys2Proof.Machine

/-- Settles O34: the fence read off its three scans. -/
theorem fenceEffect : Obligations.FenceEffect := by
  intro s v notSupervisor hears ends older younger
  have supmid : (s.fenceStart v).supmid = s.supmid := by rw [State.fenceStart, State.silence_frame]
  refine ⟨s.fenceClean v, s.fenceMaster_eq v, s.fenceClean_frame v,
    fun k => ⟨s.gen_fenceClean v k, State.lease_fenceClean_of_free⟩,
    fun k l holds => ⟨fun owner => ?_, State.lease_fenceClean_of_last holds, State.lease_fenceClean_of_more holds,
      fun o owner other frame => ?_, fun other shares noFrame => ?_⟩,
    s.queue_fenceClean v, s.master_fenceClean_self v, fun n other => ⟨?_, ?_⟩⟩
  · refine ⟨_, State.lease_fenceClean_of_owner holds owner, rfl, rfl, fun n => ?_⟩
    rw [State.fencedLease]
    simp only [State.raised_fenceStart, supmid, State.notices_set_get, List.mem_singleton]
    by_cases self : n = v
    · simp [self]
    · simp [self, hears, eq_comm (a := v)]
  · have shares : l.hold.shares v = false := by
      cases hold : l.hold with
      | shared es => rw [hold] at owner; cases owner
      | held | grace | tainted | scrub => rfl
    have not_own : l.hold.owner? ≠ some v := by rw [owner]; simpa using other
    refine ⟨_, State.lease_fenceClean_of_frame (State.lease_fenceLeaves_of_other holds not_own shares) owner frame, rfl, rfl,
      fun n => ?_⟩
    rw [State.cutLease]
    simp only [State.raised_fenceStart, State.notices_set_get, List.mem_singleton]
    by_cases self : n = v
    · simp [self]
    · simp [self, hears, older, younger, framesBefore, framesAfter, eq_comm (a := v)]
  · exact State.lease_fenceClean_of_no_frame (State.lease_fenceLeaves_of_other holds other shares) noFrame
  · rw [State.master_fenceClean other]
  · refine ⟨s.freedWhere (Lease.SharedByOnly v), fun k ns => State.freedWhere_eq_some, ?_⟩
    exact State.orphansOf_of_along (congrArg Master.orphan (State.master_fenceClean other)) fun _ => rfl

end Sys2Proof.Proofs
end

section
/-! PROOF. SET MASTER (R134) and FENCE (R136): their checks and their counts. -/

namespace Sys2Proof.Machine.State

variable {s : State} {m v : Mid}

/-! ### SET MASTER -/

/-- The settings of a master replaced (R134). -/
def resettle (s : State) (v : Mid) (quota threshold : Nat) : State :=
  s.setMaster v { s.master v with quota := quota, threshold := threshold }

/-- SET MASTER past its standing checks (R134). -/
theorem setMasterRule_eq (standing : s.supervisorStanding m = none) {v : Mid} {quota threshold : Nat}
    (master : (s.win m).argMaster = v) (asked : (s.win m).argQuota = quota) (count : (s.win m).argThreshold = threshold) :
    setMasterRule s m =
      if quota = 0 ∨ 32 < quota then (s, .bare .badConfig)
      else if quota < (s.master v).held + (s.master v).waiting then
        (s, .items .quota (s.master v).held (s.master v).waiting)
      else
        (if (s.resettle v quota threshold).overThreshold v then (s.resettle v quota threshold).fenceMaster v
          else s.resettle v quota threshold,
          .items .ok quota threshold (flag ((s.resettle v quota threshold).overThreshold v))) := by
  subst master asked count
  rw [setMasterRule, standing, unlessRefused_none]
  rfl

/-- The new settings fence the master when its count meets the new threshold (R134, R135). -/
theorem overThreshold_resettle_iff {quota threshold : Nat} :
    (s.resettle v quota threshold).overThreshold v = true ↔
      0 < threshold ∧ v ≠ s.supmid ∧ (s.master v).state ≠ .fenced ∧ threshold ≤ (s.master v).violations := by
  simp only [overThreshold, resettle, fenced, master_setMaster, if_true, Bool.and_eq_true, Bool.not_eq_true',
    isSupervisor_eq_false_iff, decide_eq_false_iff_not, decide_eq_true_eq]
  tauto

/-! ### FENCE -/

/-- FENCE past its standing checks (R136). -/
theorem fenceRule_eq (standing : s.supervisorStanding m = none) {v : Mid} (master : (s.win m).argMaster = v) :
    fenceRule s m =
      if v = s.supmid then (s, .bare .notAllowed)
      else if (s.master v).state = .fenced then (s, .bare .wrongState)
      else
        (s.fenceMaster v,
          .items .ok (s.ownedCount v) (s.memberCount v) (s.cutCount v) (s.queue.countP fun e => e.claim.master = v)) := by
  subst master
  rw [fenceRule, standing, unlessRefused_none]
  simp only [isSupervisor, fenced, decide_eq_true_eq]

end Sys2Proof.Machine.State

namespace Sys2Proof.Proofs

open Sys2Proof.Machine

/-- Settles O32. -/
theorem setMasterReplaces : Obligations.SetMasterReplaces := by
  intro s served attached m v quota threshold x fences
  obtain ⟨y, hy⟩ : ∃ y, y = s.takeRequest m 0x42 := ⟨_, rfl⟩
  have standing : y.supervisorStanding m = none := by rw [hy]; exact State.supervisorStanding_of_attached attached
  have rule := State.setMasterRule_eq standing (v := v) (quota := quota) (threshold := threshold)
    (by rw [hy, State.argMaster_takeRequest]) (by rw [hy, State.argQuota_takeRequest])
    (by rw [hy, State.argThreshold_takeRequest])
  have record : y.master v = x := by rw [hy, State.master_takeRequest]
  rw [record] at rule
  have refused : ∀ {a}, setMasterRule y m = (y, a) → s.AnsweredOnly (.setMaster m) m 0x42 a := fun refusal => by
    rw [hy] at refusal
    exact State.answeredOnly_of_request (r := .setMaster) served refusal
  refine ⟨fun bad => refused (rule.trans (if_pos bad)), fun good => ⟨fun above => ?_, fun fits => ?_⟩⟩
  · exact refused (rule.trans ((if_neg good).trans (if_pos above)))
  · have becomes : s.MasterBecomes (y.resettle v quota threshold) v { x with quota := quota, threshold := threshold } := by
      rw [hy]; exact (s.takeRequest m 0x42).masterBecomes_setMaster v _
    have meets : (y.resettle v quota threshold).overThreshold v = true ↔ fences := by
      rw [State.overThreshold_resettle_iff, hy]; rfl
    rw [if_neg good, if_neg fits] at rule
    by_cases over_ : fences
    · rw [meets.2 over_, if_pos rfl] at rule
      have win : ((y.resettle v quota threshold).fenceMaster v).win = y.win := State.win_fenceMaster _ v
      rw [hy] at rule win
      obtain ⟨w, b, run, answered⟩ := State.answered_of_request (r := .setMaster) served rule win
      rw [← hy] at run answered
      exact ⟨_, y.resettle v quota threshold, run, by rw [hy]; rfl, becomes, fun keeps => absurd over_ keeps,
        fun _ => ⟨rfl, answered⟩⟩
    · rw [Bool.eq_false_iff.2 (mt meets.1 over_)] at rule
      rw [hy] at rule
      obtain ⟨w, b, run, answered⟩ := State.answered_of_request (r := .setMaster) served rule rfl
      rw [← hy] at run answered
      exact ⟨_, y.resettle v quota threshold, run, by rw [hy]; rfl, becomes, fun _ => ⟨rfl, answered⟩,
        fun fenced => absurd fenced over_⟩

/-- Settles O33. -/
theorem fenceCounts : Obligations.FenceCounts := by
  intro s served attached m v cut
  obtain ⟨y, hy⟩ : ∃ y, y = s.takeRequest m 0x48 := ⟨_, rfl⟩
  have standing : y.supervisorStanding m = none := by rw [hy]; exact State.supervisorStanding_of_attached attached
  have rule := State.fenceRule_eq standing (v := v) (by rw [hy, State.argMaster_takeRequest])
  have supmid : y.supmid = m := by rw [hy, State.supmid_takeRequest]
  have record : y.master v = s.master v := by rw [hy, State.master_takeRequest]
  rw [supmid, record] at rule
  have refused : ∀ {a}, fenceRule y m = (y, a) → s.AnsweredOnly (.fence m) m 0x48 a := fun refusal => by
    rw [hy] at refusal
    exact State.answeredOnly_of_request (r := .fence) served refusal
  refine ⟨fun own => refused (rule.trans (if_pos own)), fun other => ⟨fun fenced => ?_, fun stands => ?_⟩⟩
  · exact refused (rule.trans ((if_neg other).trans (if_pos fenced)))
  · rw [if_neg other, if_neg stands] at rule
    have cuts : y.cutCount v = (allSlots.map cut).sum := by
      refine congrArg List.sum (List.map_congr_left fun k _ => ?_)
      have lease : y.lease k = s.lease k := by rw [hy, State.lease_takeRequest]
      simp only [cut, lease]
      cases s.lease k with
      | none => rfl
      | some l => simp only [Lease.ownedBy, decide_eq_true_eq]
    rw [cuts] at rule
    have win : (y.fenceMaster v).win = y.win := State.win_fenceMaster _ v
    rw [hy] at rule win
    obtain ⟨w, b, run, answered⟩ := State.answered_of_request (r := .fence) served rule win
    exact ⟨_, s.takeRequest m 0x48, run, rfl, rfl, answered⟩

end Sys2Proof.Proofs
end

section
/-! PROOF. Accesses outside live leases (R110 to R113, R116), the claim queue's tick (R56, R57), and the link events that
place no word (R155, R156). -/

namespace Sys2Proof.Machine

/-- An entry's wait runs out on a tick when it is WAITING with at most one tick left. -/
theorem ClaimEntry.runsOut_iff {e : ClaimEntry} : e.runsOut = true ↔ e.status = .waiting 0 ∨ e.status = .waiting 1 := by
  cases status : e.status with
  | ended => simp [ClaimEntry.runsOut, ClaimEntry.isWaiting, status]
  | waiting n =>
    simp only [ClaimEntry.runsOut, ClaimEntry.isWaiting, ClaimEntry.left, status, Bool.true_and, decide_eq_true_eq,
      ClaimStatus.waiting.injEq]
    omega

namespace State

variable {s t u : State} {m : Mid} {a : Word} {dir : Direction} {size : Nat} {data : Word} {p : PoolIx} {k : SlotIx}
  {l : Lease}

/-! ### Accesses -/

/-- Under a closed lease the verdict is TAINTED, whoever asks (R113). -/
theorem verdict_under_closed (pools : s.PoolLaw) (coverage : s.CoverageLaw) (notFenced : (s.master m).state ≠ .fenced)
    (covers : s.Covers a k l) (closed : l.hold.closed = true) : s.verdict m a dir = .refuse .tainted (some k) := by
  have governs := covers.2.1
  have exclusive : l.hold.mode = .exclusive := by
    cases hold : l.hold with
    | shared es => rw [hold] at closed; cases closed
    | held | grace | tainted | scrub => rfl
  have alone : ∀ j l', s.Covers a j l' → j = k := fun j l' covers' =>
    ((coverage.same_or_shared pools covers covers').resolve_right fun ⟨shared, _⟩ => by
      rw [exclusive] at shared; cases shared).1
  have found := (pools.covering_eq_some governs (f := Hold.closed) (k := k)).2
    ⟨⟨l, covers, closed⟩, fun j lower l' covers' => absurd (alone j l' covers') (ne_of_lt lower)⟩
  rw [verdict_of_governs pools governs, if_neg notFenced, granuleVerdict_of_closed found]

/-- Where no lease covers the address the verdict is the policy's (R116). -/
theorem verdict_of_uncovered (pools : s.PoolLaw) (governs : s.Governs a p) (notFenced : (s.master m).state ≠ .fenced)
    (uncovered : ∀ k l, ¬s.Covers a k l) : s.verdict m a dir = policyVerdict (s.pool p).policy dir := by
  have none_found : ∀ f, s.covering p ((s.pool p).granuleOf a) f = none := fun f =>
    (pools.covering_eq_none governs).2 fun k l covers => absurd covers (uncovered k l)
  rw [verdict_of_governs pools governs, if_neg notFenced,
    granuleVerdict_of_uncovered (none_found _) (none_found _) (none_found _)]

/-- An address that no enabled pool holds is ungoverned (R6). -/
theorem governed_eq_none (ungoverned : ∀ p, ¬s.Governs a p) : s.governed a = none := by
  have missed : allPools.find? (fun p => (s.pool p).enabled && (s.pool p).contains a) = none :=
    List.find?_eq_none.2 fun p _ => by simpa [Governs, Pool.contains] using ungoverned p
  rw [governed, missed, Option.map_none]

/-- An access outside the window, the bus being free: during a reset it passes, and otherwise it is judged (R108, R110). -/
theorem transact_of_free (beside : s.windowOffset a = none) (free : s.busHeld = false) :
    s.transact m a dir size data = if s.inReset = true then s.setBus .passed else s.judge m a dir := by
  simp only [transact, beside, free, Bool.false_eq_true, if_false]

/-! ### The link -/

/-- The ACTIVE entry is the first that is ACTIVE. -/
theorem activeEntry_of_split {older younger : List ScrubEntry} {x : ScrubEntry}
    (list : s.scrub.list = older ++ x :: younger) (active : x.active = true) (before : ∀ y ∈ older, y.active = false) :
    s.activeEntry = some x := by
  rw [activeEntry, list, find_active active before]

theorem active_of_state {x : ScrubEntry} {p : Nat} (state : x.state = .active p) : x.active = true := by
  rw [ScrubEntry.active, state]; rfl

/-- A grant that is not asked for only raises BGNT (R155). -/
theorem raiseGrant_of_unasked (unasked : s.scrub.breq = false ∨ s.scrub.run ≠ none) :
    s.raiseGrant = s.setScrub { s.scrub with bgnt := true } := by
  have not_both : ¬(s.scrub.breq = true ∧ s.scrub.run = none) := by
    rintro ⟨breq, run⟩
    rcases unasked with deasserted | running
    · rw [deasserted] at breq; cases breq
    · exact running run
  unfold raiseGrant
  cases s.activeEntry with
  | none => rfl
  | some e => exact if_neg not_both

/-- A grant in answer to BREQ begins a run of the ACTIVE entry (R155). -/
theorem raiseGrant_of_asked {x : ScrubEntry} {p : Nat} (active : s.activeEntry = some x) (state : x.state = .active p)
    (breq : s.scrub.breq = true) (run : s.scrub.run = none) :
    s.raiseGrant = s.setScrub
      { s.scrub with
        bgnt := true
        run := some { limit := s.scrub.runLength, words := 0, withdrawn := false }
        flight := some { address := p, data := s.scrub.fill } } := by
  unfold raiseGrant
  rw [active]
  dsimp only
  rw [if_pos ⟨breq, run⟩, state]
  rfl

/-- A withdrawal lets the word in flight be answered (R156). -/
theorem lowerGrant_of_flight {r : Run} {f : Flight} (run : s.scrub.run = some r) (flight : s.scrub.flight = some f) :
    s.lowerGrant = s.setScrub { s.scrub with bgnt := false, run := some { r with withdrawn := true } } := by
  unfold lowerGrant
  split
  · next running _ =>
    obtain rfl := Option.some.inj (run.symm.trans running)
    rfl
  · next landed => rw [flight] at landed; cases landed
  · next idle => rw [run] at idle; cases idle

/-- It ends a run that has none (R156). -/
theorem lowerGrant_of_landed {r : Run} (run : s.scrub.run = some r) (landed : s.scrub.flight = none) :
    s.lowerGrant = s.setScrub { s.scrub with bgnt := false, run := none, breq := true } := by
  unfold lowerGrant
  split
  · next flight => rw [landed] at flight; cases flight
  · rw [endRun, setScrub_setScrub]
    refine congrArg s.setScrub ?_
    dsimp only [setScrub_scrub]
    rw [landed]
    rfl
  · next idle => rw [run] at idle; cases idle

/-- With no run in progress it asserts BREQ for an ACTIVE entry (R154, R155). -/
theorem lowerGrant_of_idle (idle : s.scrub.run = none) :
    s.lowerGrant =
      s.setScrub
        (if s.activeEntry.isSome = true then { s.scrub with bgnt := false, breq := true }
          else { s.scrub with bgnt := false }) := by
  unfold lowerGrant
  split
  · next running _ => rw [idle] at running; cases running
  · next running _ => rw [idle] at running; cases running
  · dsimp only
    split <;> rfl

/-- The end of a link event outside a run. -/
theorem busHeld_of_no_run (run : s.scrub.run = none) : s.busHeld = false := by rw [busHeld, run]; rfl

theorem busHeld_of_run {r : Run} (run : s.scrub.run = some r) : s.busHeld = true := by rw [busHeld, run]; rfl

end State

end Sys2Proof.Machine

namespace Sys2Proof.Proofs

open Sys2Proof.Machine

/-- Settles O43. -/
theorem accessFencedOrTainted : Obligations.AccessFencedOrTainted := by
  intro s m a dir size data served pools
  refine ⟨fun fenced ⟨p, governs⟩ => ?_, fun notFenced coverage k l covers closed => ?_⟩
  · exact State.refuses_of_verdict served pools governs
      ((State.verdict_of_governs pools governs).trans (if_pos fenced))
  · exact State.refuses_of_verdict served pools covers.2.1
      (State.verdict_under_closed pools coverage notFenced covers (Hold.closed_iff.1 closed))

/-- Settles O44: the policy's verdict by Table 1-4, and the accesses that no judge sees. -/
theorem accessOutsideLeases : Obligations.AccessOutsideLeases := by
  intro s m a dir size data free
  refine ⟨fun noReset pools p governs notFenced uncovered => ?_, fun outside ungoverned => ?_⟩
  · have served : s.Served := ⟨noReset, free⟩
    have verdict := State.verdict_of_uncovered (dir := dir) pools governs notFenced uncovered
    refine ⟨fun policy => State.passes_of_verdict served pools governs ?_,
      fun policy read => State.passes_of_verdict served pools governs ?_,
      fun policy write => State.refuses_of_verdict served pools governs ?_,
      fun policy => State.refuses_of_verdict served pools governs ?_⟩
    · rw [verdict, policy]; rfl
    · rw [verdict, policy, read]; rfl
    · rw [verdict, policy, write]; rfl
    · rw [verdict, policy]; rfl
  · refine congrArg Host.Outcome.next ?_
    have beside := (State.windowOffset_eq_none_iff s).2 outside
    rw [State.transact_of_free beside free]
    by_cases reset : s.inReset = true
    · rw [if_pos reset]; rfl
    · have pass : s.verdict m a dir = .pass := by
        rw [State.verdict, State.governed_eq_none (ungoverned.resolve_left reset)]
      rw [if_neg reset, State.judge, pass]
      rfl

/-- Settles O47. -/
theorem ticksAndWaits : Obligations.TicksAndWaits := by
  intro s out
  refine ⟨fun reset => congrArg Host.Outcome.next (if_pos reset),
    fun running => ⟨_, congrArg Host.Outcome.next (if_neg (by rw [running]; exact Bool.false_ne_true)), rfl⟩, ?_⟩
  obtain ⟨x, hx⟩ : ∃ x, x = s.setTicks { s.ticks with queueDue := s.ticks.queueDue - 1 } := ⟨_, rfl⟩
  have queue : x.queue = s.queue := by rw [hx, State.setTicks_queue]
  have run : exec .claimQueueTick s = .next x.queueTick := by rw [hx]; rfl
  have frame := x.queueTicked_frame
  rw [State.queueTick_eq, queue] at run
  rw [queue] at frame
  refine ⟨_, x.queueTicked, run, fun ⟨e, mem, runs_out⟩ => ?_, fun none_out => ?_, ?_, ?_, fun m => ?_⟩
  · exact if_neg (List.ne_nil_of_mem (List.mem_filter.2 ⟨mem, ClaimEntry.runsOut_iff.2 runs_out⟩))
  · exact if_pos (List.filter_eq_nil_iff.2 fun e mem => mt ClaimEntry.runsOut_iff.1 (none_out e mem))
  · rw [frame, hx]; rfl
  · rw [frame]
    refine List.map_congr_left fun e _ => ?_
    unfold ClaimEntry.tick
    cases e.status <;> rfl
  · have counts : (s.queue.countP fun e => e.runsOut && e.claim.master = m) =
        s.queue.countP fun e => e.claim.master = m ∧ out e := by
      refine List.countP_congr fun e _ => ?_
      rw [Bool.and_eq_true, decide_eq_true_eq, decide_eq_true_eq, ClaimEntry.runsOut_iff, and_comm]
    rw [State.master_queueTicked, queue, counts, hx, State.master_setTicks]

/-- Settles O50. -/
theorem runsBeginAndAreWithdrawn : Obligations.RunsBeginAndAreWithdrawn := by
  intro s e
  refine ⟨fun granted => congrArg Host.Outcome.next (if_pos granted), fun low unasked => ?_,
    fun older x younger p low breq run list active before => ?_, fun r f run flight => ?_, fun r run flight => ?_,
    fun run ⟨x, mem, active⟩ => ?_, fun run none_active => ?_⟩
  · have low' : ¬s.scrub.bgnt = true := by rw [show s.scrub.bgnt = false from low]; exact Bool.false_ne_true
    exact congrArg Host.Outcome.next ((if_neg low').trans (State.raiseGrant_of_unasked unasked))
  · have low' : ¬s.scrub.bgnt = true := by rw [show s.scrub.bgnt = false from low]; exact Bool.false_ne_true
    exact congrArg Host.Outcome.next ((if_neg low').trans
      (State.raiseGrant_of_asked (State.activeEntry_of_split list (State.active_of_state active) before) active breq run))
  all_goals refine congrArg Host.Outcome.next ?_
  · rw [State.lowerGrant_of_flight run flight, State.letOn_of_held rfl]
    rfl
  · rw [State.lowerGrant_of_landed run flight, State.letOn_of_end (State.busHeld_of_run run) rfl]
    rfl
  all_goals rw [State.letOn_of_free (State.busHeld_of_no_run run), State.lowerGrant_of_idle run]
  · rw [if_pos (State.activeEntry_isSome_iff.2 ⟨x, mem, active⟩)]
    rfl
  · have no_active : ¬s.activeEntry.isSome = true := fun some_active => by
      obtain ⟨x, mem, active⟩ := State.activeEntry_isSome_iff.1 some_active
      rw [none_active x mem] at active; cases active
    rw [if_neg no_active]
    rfl

/-- Settles O52. -/
theorem scrubHoldsBus : Obligations.ScrubHoldsBus := by
  intro s m at_ waits
  refine ⟨fun running => ?_, State.takeHeld_of_nil, fun x rest t run held taken => ?_⟩
  · have held : s.busHeld = true := by rw [State.busHeld, Option.isSome_iff_ne_none]; exact running
    have waits_window : ∀ offset dir size data, s.serveWindow m offset dir size data =
        { s with held := s.held ++ [s.windowTransaction m offset dir size data] } := fun offset dir size data =>
      State.serveWindow_of_held held offset dir size data
    refine ⟨fun r => ?_, fun code => ?_, fun offset data => ?_, fun offset dir size data => ?_, fun a dir size data => ?_⟩
    · show exec (r.command m) s = _
      rw [exec_command, State.serveRequest_of_held s held]
      rfl
    · exact congrArg Host.Outcome.next (State.serveRequest_of_held s held)
    · exact congrArg Host.Outcome.next (waits_window offset .write 4 data)
    · exact congrArg Host.Outcome.next (waits_window offset dir size data)
    · refine congrArg Host.Outcome.next ?_
      cases window : s.windowOffset a with
      | some offset =>
        rw [State.transact_of_windowOffset window, waits_window, State.windowTransaction,
          State.address_of_windowOffset window]
      | none =>
        simp only [State.transact, window, held, if_true]
        rfl
  · have oldest : s.takeOldest = t := by
      rw [State.takeOldest_of_cons held]
      exact Host.Outcome.next.inj taken
    have free : ({ s with held := rest } : State).busHeld = false := State.busHeld_of_no_run run
    have kept : s.takeOldest.held = rest := by
      rw [State.takeOldest_of_cons held]
      exact (State.keeps_transact free x.master x.address x.dir x.size x.data).1
    rw [State.takeHeld_of_cons held kept, oldest]

end Sys2Proof.Proofs
end

section
/-! PROOF. What a change of one slot (`Touches`) says in the words of the statements, and the four expiry events. -/

namespace Sys2Proof.Machine

/-- The other sharers of a list in which one entry is `m`'s. -/
theorem Hold.others_of_split {older younger : List Sharer} {e : Sharer} {m : Mid} (own : e.master = m)
    (apart : ∀ x ∈ older ++ younger, x.master ≠ m) :
    (Hold.shared (older ++ e :: younger)).others m = older ++ younger := by
  have before : older.filter (fun e => e.master ≠ m) = older :=
    List.filter_eq_self.2 fun x mem => decide_eq_true (apart x (List.mem_append_left _ mem))
  have behind : younger.filter (fun e => e.master ≠ m) = younger :=
    List.filter_eq_self.2 fun x mem => decide_eq_true (apart x (List.mem_append_right _ mem))
  rw [Hold.others, Hold.sharers, List.filter_append, List.filter_cons_of_neg (by simp [own]), before, behind]

theorem Hold.shares_of_split {older younger : List Sharer} {e : Sharer} {m : Mid} (own : e.master = m) :
    (Hold.shared (older ++ e :: younger)).shares m = true :=
  State.shares_iff.2 (List.mem_map.2 ⟨e, List.mem_append_right _ List.mem_cons_self, own⟩)

namespace State

variable {s t u : State} {m n o : Mid} {k : SlotIx} {l : Lease} {r : Request} {a : Answer}

/-! ### A change of one slot -/

section
variable {after : Option Lease} {lost : Mid → Nat} {moved : Mid → Option NoticeKind}

/-- It is that slot's lease that changes. -/
theorem Touches.leaseBecomes (h : s.Touches k after lost moved t) : s.LeaseBecomes t k after :=
  ⟨by rw [h.slot, if_pos rfl], fun j other => by rw [h.slot, if_neg other.symm]; rfl⟩

/-- With no holder lost and no notice moved, no master's record changes. -/
theorem Touches.masters (h : s.Touches k after noLoss noMove t) (n : Mid) : t.master n = s.master n := h.master n

/-- Then the slots alone change. -/
theorem Touches.slots_only (h : s.Touches k after noLoss noMove t) : t = { s with slots := t.slots } := by
  have same : t.masters = s.masters := Vector.ext fun i small => h.masters ⟨i, small⟩
  have frame := h.frame
  rw [same] at frame
  exact frame

/-- The one holder lost has one lease fewer, and nobody else's record changes. -/
theorem Touches.masterBecomes (h : s.Touches k after (fun n => if n = o then 1 else 0) noMove t) :
    s.MasterBecomes t o { s.master o with held := (s.master o).held - 1 } := by
  refine ⟨by rw [h.master, if_pos rfl]; rfl, fun n other => ?_⟩
  rw [h.master, if_neg other]
  rfl

end

/-- A request whose rule rewrites one lease does so and shows its answer. -/
theorem rewrites_of_touches (served : s.Served) (rule : r.rule (s.takeRequest m r.code) m = (u, a))
    (touches : (s.takeRequest m r.code).Touches k (some l) noLoss noMove u) :
    s.Rewrites (r.command m) m r.code a k l := by
  have only := touches.slots_only
  obtain ⟨w, b, run, answered⟩ := answered_of_request served rule (by rw [only]; rfl)
  refine ⟨_, run, ?_, touches.leaseBecomes, answered⟩
  rw [only]
  rfl

/-- A request whose rule touches one slot and no pass runs: what it changes, and the answer. -/
theorem answered_of_touches {after : Option Lease} {lost : Mid → Nat} {moved : Mid → Option NoticeKind}
    (served : s.Served) (rule : r.rule (s.takeRequest m r.code) m = (u, a))
    (touches : (s.takeRequest m r.code).Touches k after lost moved u) :
    ∃ w b, exec (r.command m) s = .next { u with window := w, bus := b } ∧
      ({ u with window := w, bus := b } : State) =
        { s with slots := u.slots, masters := u.masters, window := w, bus := b } ∧
      s.Answered { u with window := w, bus := b } m r.code a := by
  obtain ⟨w, b, run, answered⟩ := answered_of_request served rule (congrArg State.win touches.frame :)
  refine ⟨w, b, run, ?_, answered⟩
  rw [touches.frame]
  rfl

/-- A request whose rule touches one slot and then runs a grant pass: what the pass starts from, and the answer. -/
theorem passOf_of_touches {after : Option Lease} {lost : Mid → Nat} {moved : Mid → Option NoticeKind}
    (served : s.Served) (rule : r.rule (s.takeRequest m r.code) m = (u.grantPass, a))
    (touches : (s.takeRequest m r.code).Touches k after lost moved u) :
    ∃ t, exec (r.command m) s = .next t ∧ PassOf u t ∧
      u = { s with slots := u.slots, masters := u.masters, window := u.window } ∧ s.LeaseBecomes u k after ∧
      (∀ n, u.master n =
        { s.master n with
          held := (s.master n).held - lost n
          orphan := orphanAfter (s.master n) (s.handle k) (moved n) }) ∧
      s.Answered t m r.code a := by
  obtain ⟨w, b, run, answered⟩ := answered_of_request served rule
    (by rw [win_grantPass]; exact (congrArg State.win touches.frame :))
  have window : u.window = (s.takeRequest m r.code).window := (congrArg State.window touches.frame :)
  refine ⟨_, run, rfl, ?_, touches.leaseBecomes, touches.master, answered⟩
  rw [window]
  exact touches.frame

/-! ### The expiry events (R76, R77, R79, R57) -/

/-- TAINTED at the end of a grace, or of a term with no grace (R76, R77). -/
theorem endGrace_taints {g : Tag} (holds : s.lease k = some l) (owner : l.hold.owner? = some o)
    (taint : l.hold.taint = .tainted o g) :
    s.endGrace k = { s with slots := (s.endGrace k).slots, masters := (s.endGrace k).masters } ∧
      s.LeaseBecomes (s.endGrace k) k
        (some
          { l with
            hold := .tainted o g
            notices := s.raised l.notices .tainted (o :: l.hold.chain ++ [s.supmid]) }) ∧
      s.MasterBecomes (s.endGrace k) o { s.master o with held := (s.master o).held - 1 } := by
  have touches := touches_endGrace holds owner
  rw [graceEnded, taint] at touches
  exact ⟨touches.frame, touches.leaseBecomes, touches.masterBecomes⟩

section
variable {older younger : List Sharer} {e : Sharer} (hold : l.hold = .shared (older ++ e :: younger)) (own : e.master = m)
  (apart : ∀ x ∈ older ++ younger, x.master ≠ m)
include hold own apart

/-- The end of the one membership of a lease frees its slot, the notices there now moving to the orphan fields (R30). -/
theorem touches_endMembership_sole {ns : NoticeSet} (tell : s.Touches k (some { l with notices := ns }) noLoss noMove t)
    (last : older ++ younger = []) :
    s.Touches k none (fun n => if n = m then 1 else 0) (fun n => ns[n]) (t.endMembership k m) := by
  refine tell.andThen (touches_endMembership_last tell.lease_same ?_ ?_)
  · exact hold ▸ Hold.shares_of_split own
  · rw [hold, Hold.others_of_split own apart, last]

/-- The end of another takes its entry off the list (R30). -/
theorem touches_endMembership_shared {ns : NoticeSet} (tell : s.Touches k (some { l with notices := ns }) noLoss noMove t)
    (more : older ++ younger ≠ []) :
    s.Touches k (some { l with hold := .shared (older ++ younger), notices := ns }) (fun n => if n = m then 1 else 0)
      noMove (t.endMembership k m) := by
  have others := Hold.others_of_split own apart
  rw [← hold] at others
  have leaves := touches_endMembership_other tell.lease_same (m := m) (hold ▸ Hold.shares_of_split own)
    (others ▸ more)
  rw [show ({ l with notices := ns } : Lease).hold.others m = older ++ younger from others] at leaves
  exact tell.andThen leaves

end

/-- The queue with the one entry ended that expires. -/
theorem map_ended {older younger : List ClaimEntry} {e : ClaimEntry} {tag : Tag} (expires : e.expiring m tag = true)
    (others : ∀ x ∈ older ++ younger, x.expiring m tag = false) :
    (older ++ e :: younger).map (ClaimEntry.ended m tag) = older ++ { e with status := .ended } :: younger := by
  have kept : ∀ es : List ClaimEntry, (∀ x ∈ es, x ∈ older ++ younger) → es.map (ClaimEntry.ended m tag) = es :=
    fun es sub => (List.map_congr_left fun x mem =>
      if_neg (by rw [others x (sub x mem)]; exact Bool.false_ne_true)).trans (List.map_id' es)
  rw [List.map_append, List.map_cons, kept older fun _ => List.mem_append_left _,
    kept younger fun _ => List.mem_append_right _, ClaimEntry.ended, if_pos expires]

/-- An entry expires when it is on its last tick under that master and tag (R57). -/
theorem expiring_iff {e : ClaimEntry} {tag : Tag} :
    e.expiring m tag = true ↔
      (e.status = .waiting 0 ∨ e.status = .waiting 1) ∧ e.claim.master = m ∧ e.claim.tag = tag := by
  simp only [ClaimEntry.expiring, Bool.and_eq_true, decide_eq_true_eq, ClaimEntry.runsOut_iff, and_assoc]

theorem termRunsOut_iff :
    s.termRunsOut k = true ↔ ∃ l o g n c, s.lease k = some l ∧ l.hold = .held o g n c ∧ n.remaining ≤ 1 := by
  constructor
  · unfold termRunsOut
    split
    · next holds => exact fun out => ⟨_, _, _, _, _, holds, rfl, of_decide_eq_true out⟩
    · nofun
  · rintro ⟨⟨range, hold, notices⟩, o, g, n, c, holds, rfl, out⟩
    simp only [termRunsOut, holds, out, decide_true]

theorem graceRunsOut_iff :
    s.graceRunsOut k = true ↔ ∃ l o g n c left, s.lease k = some l ∧ l.hold = .grace o g n c left ∧ left ≤ 1 := by
  constructor
  · unfold graceRunsOut
    split
    · next holds => exact fun out => ⟨_, _, _, _, _, _, holds, rfl, of_decide_eq_true out⟩
    · nofun
  · rintro ⟨⟨range, hold, notices⟩, o, g, n, c, left, holds, rfl, out⟩
    simp only [graceRunsOut, holds, out, decide_true]

theorem sharerRunsOut_iff :
    s.sharerRunsOut k m = true ↔
      ∃ l, s.lease k = some l ∧ ∃ e ∈ l.hold.sharers, e.master = m ∧ e.term.remaining ≤ 1 := by
  simp only [sharerRunsOut, Option.any_eq_true, List.any_eq_true, Bool.and_eq_true, decide_eq_true_eq]

/-- With no entry that expires the event does not occur; else it ends that entry, and a grant pass follows (R57). -/
theorem exec_waitLimitExpiry (s : State) (m : Mid) (tag : Tag) :
    exec (.waitLimitExpiry m tag) s =
      .next
        (if s.queue.any (ClaimEntry.expiring m tag) then
          ((s.setQueue (s.queue.map (ClaimEntry.ended m tag))).lowerWaiting m).grantPass
        else s) := rfl

end State

end Sys2Proof.Machine

namespace Sys2Proof.Proofs

open Sys2Proof.Machine

/-- Settles O49: each event is its guard, and where the guard holds the change of one slot, or of one queue entry. -/
theorem expiryEvents : Obligations.ExpiryEvents := by
  intro s k m tag enters taints
  have tainting : ∀ l o g, s.lease k = some l → l.hold.owner? = some o → l.hold.taint = .tainted o g →
      ∀ c : Instr, exec c s = .next (s.endGrace k) → taints c l o g l.hold.chain := fun l o g holds owner taint c run => by
    obtain ⟨frame, lease, master⟩ := State.endGrace_taints holds owner taint
    exact ⟨_, run, frame, lease, master⟩
  refine ⟨fun l o g n c holds hold out => ?_, fun runs => ?_, fun l o g n c left holds hold out => ?_, fun runs => ?_,
    fun l older e younger holds hold own out apart => ?_, fun runs => ?_, fun older e younger queue own named out apart => ?_,
    fun waits => ?_⟩
  · have due : s.termRunsOut k = true := State.termRunsOut_iff.2 ⟨l, o, g, n, c, holds, hold, out⟩
    refine ⟨fun grace => ?_, fun none => ?_⟩
    · have touches := State.touches_endTerm holds hold grace.ne'
      exact ⟨_, congrArg Host.Outcome.next (if_pos due), touches.slots_only, touches.leaseBecomes⟩
    · have tainted := tainting l o g holds (by rw [hold]; rfl) (by rw [hold]; rfl) (.termExpiry k)
        (congrArg Host.Outcome.next ((if_pos due).trans (State.endTerm_of_no_grace holds hold none)))
      rwa [show l.hold.chain = c by rw [hold]; rfl] at tainted
  · refine congrArg Host.Outcome.next (if_neg fun due => ?_)
    obtain ⟨l, o, g, n, c, holds, hold, out⟩ := State.termRunsOut_iff.1 due
    exact absurd out (Nat.not_le.2 (runs l o g n c holds hold))
  · have due : s.graceRunsOut k = true := State.graceRunsOut_iff.2 ⟨l, o, g, n, c, left, holds, hold, out⟩
    have tainted := tainting l o g holds (by rw [hold]; rfl) (by rw [hold]; rfl) (.graceEnd k)
      (congrArg Host.Outcome.next (if_pos due))
    rwa [show l.hold.chain = c by rw [hold]; rfl] at tainted
  · refine congrArg Host.Outcome.next (if_neg fun due => ?_)
    obtain ⟨l, o, g, n, c, left, holds, hold, out⟩ := State.graceRunsOut_iff.1 due
    exact absurd out (Nat.not_le.2 (runs l o g n c left holds hold))
  · have due : s.sharerRunsOut k m = true :=
      State.sharerRunsOut_iff.2 ⟨l, holds, e, by rw [hold]; exact List.mem_append_right _ List.mem_cons_self, own, out⟩
    have tell := State.touches_notify s k .expired m
    rw [holds] at tell
    refine ⟨_, s.endSharerTerm k m, congrArg Host.Outcome.next (if_pos due), rfl, ?_, fun last => ?_, fun more => ?_⟩
    · by_cases last : older ++ younger = []
      · exact (State.touches_endMembership_sole hold own apart tell last).frame
      · exact (State.touches_endMembership_shared hold own apart tell last).frame
    · have touches := State.touches_endMembership_sole hold own apart tell last
      refine ⟨touches.leaseBecomes, (touches.master m).trans (by rw [if_pos rfl]; rfl), fun n other => ?_⟩
      have untold : (s.raised l.notices .expired [m])[n] = l.notices[n] := by
        rw [State.raised_get, if_neg fun told => other (List.mem_singleton.1 told.1)]
      refine (touches.master n).trans ?_
      rw [if_neg other, untold]
      rfl
    · have touches := State.touches_endMembership_shared hold own apart tell more
      exact ⟨touches.leaseBecomes, touches.masterBecomes⟩
  · refine congrArg Host.Outcome.next (if_neg fun due => ?_)
    obtain ⟨l, holds, e, mem, own, out⟩ := State.sharerRunsOut_iff.1 due
    exact absurd out (Nat.not_le.2 (runs l e holds mem own))
  · have expires : e.expiring m tag = true := State.expiring_iff.2 ⟨out, own, named⟩
    have kept : ∀ x ∈ older ++ younger, x.expiring m tag = false := fun x mem => Bool.eq_false_iff.2 fun is => by
      obtain ⟨-, own, named⟩ := State.expiring_iff.1 is
      exact apart x mem own named
    have some_expires : s.queue.any (ClaimEntry.expiring m tag) = true :=
      List.any_eq_true.2 ⟨e, by rw [queue]; exact List.mem_append_right _ List.mem_cons_self, expires⟩
    refine ⟨_, _, (State.exec_waitLimitExpiry s m tag).trans (congrArg Host.Outcome.next (if_pos some_expires)), rfl, ?_, ?_⟩
    · rw [queue, State.map_ended expires kept]
      rfl
    · exact State.masterBecomes_setMaster _ m _
  · refine (State.exec_waitLimitExpiry s m tag).trans (congrArg Host.Outcome.next (if_neg fun some_expires => ?_))
    obtain ⟨e, mem, expires⟩ := List.any_eq_true.1 some_expires
    obtain ⟨out, own, named⟩ := State.expiring_iff.1 expires
    exact out.elim (waits e mem own named).1 (waits e mem own named).2

end Sys2Proof.Proofs

end

section
/-! PROOF. The requests over terms (R80 to R85) and ADOPT (R161), on the lease that the handle names. -/

namespace Sys2Proof.Machine

namespace State

variable {s t u : State} {m n o : Mid} {k : SlotIx} {l : Lease} {r : Request} {a : Answer}

/-! ### A rule on the lease named -/

/-- The handle check still finds the lease named when the request has been taken. -/
theorem lookup_taken (names : s.Names m k l) (code : BitVec 8) :
    (s.takeRequest m code).lookup ((s.takeRequest m code).win m).argHandle = some (k, l) := by
  rw [argHandle_takeRequest, lookup_takeRequest, lookup_of_names names]

section
variable (standing : u.standing m = none) (found : u.lookup (u.win m).argHandle = some (k, l))
include standing found

/-- RENEW on the lease named (R80 to R82). -/
theorem renewRule_found :
    renewRule u m = u.unlessRefused (renewRefusal m l)
      (let n := u.clampTerm l.range.pool
        (if (u.win m).argTerm = 0 then l.hold.grantedTerm m else (u.win m).argTerm)
       (u.setLease k { l with hold := l.hold.renewed m n },
        .items (if l.hold.state = .grace then .late else .ok) (u.win m).argHandle.toNat n)) := by
  unfold renewRule
  rw [standing]
  exact onLease_found _ found

end

section
variable (standing : u.supervisorStanding m = none) (found : u.lookup (u.win m).argHandle = some (k, l))
include standing found

/-- REVOKE of an EXCLUSIVE lease (R85). -/
theorem revokeRule_of_owner (owner : l.hold.owner? = some o) :
    revokeRule u m = ((u.taintSlot k).notifyAll k .revoked (o :: l.hold.chain),
      .items .ok (u.win m).argHandle.toNat Mode.exclusive.code SlotState.tainted.code) := by
  have accepted : revokeRefusal l = none := by
    unfold revokeRefusal
    split
    · next hold => rw [hold] at owner; cases owner
    · next hold => rw [hold] at owner; cases owner
    · rfl
  unfold revokeRule
  rw [standing]
  refine (onLease_found _ found).trans ?_
  rw [accepted, unlessRefused_none, owner]

/-- REVOKE of a SHARED lease (R86). -/
theorem revokeRule_of_shared {es : List Sharer} (hold : l.hold = .shared es) :
    revokeRule u m = (((u.notifyAll k .revoked (es.map Sharer.master)).freeSlot k).grantPass,
      .items .ok (u.win m).argHandle.toNat Mode.shared.code SlotState.free.code) := by
  unfold revokeRule
  rw [standing]
  refine (onLease_found _ found).trans ?_
  simp only [revokeRefusal, hold, unlessRefused_none, Hold.owner?, Hold.sharers]

/-- REVOKE of a closed one (R84). -/
theorem revokeRule_refused (refused : revokeRefusal l = some a) : revokeRule u m = (u, a) := by
  unfold revokeRule
  rw [standing]
  refine (onLease_found _ found).trans ?_
  rw [refused, unlessRefused_some]

/-- ADOPT on the lease named (R161). -/
theorem adoptRule_found :
    adoptRule u m = u.unlessRefused (adoptRefusal u m l)
      ((u.setLease k { l with hold := l.hold.adopted m (u.pool l.range.pool).maxTerm }).raiseHeld m,
        .items .ok (u.win m).argHandle.toNat (u.pool l.range.pool).maxTerm) := by
  unfold adoptRule
  rw [standing]
  exact onLease_found _ found

end

/-! ### The checks of SCRUB and ADOPT (R153, R161) -/

section
variable {c : Prop} [Decidable c]

/-- The checks of a request that needs a TAINTED lease: SCRUBBING, WRONG_STATE, and then one of its own. -/
def recoveryRefusal (h : Hold) (c : Prop) [Decidable c] (a : Answer) : Option Answer :=
  match h with
  | .scrub .. => some (.bare .scrubbing)
  | .tainted .. => if c then some a else none
  | _ => some (.bare .wrongState)

theorem recoveryRefusal_rows (h : Hold) (a : Answer) :
    FirstOf [(h.state = .scrub, .bare .scrubbing), (h.state = .held ∨ h.state = .grace, .bare .wrongState), (c, a)]
      (recoveryRefusal h c a = some ·) (recoveryRefusal h c a = none) := by
  cases h with
  | scrub => exact ⟨fun _ => rfl, fun no => absurd rfl no⟩
  | tainted => exact ⟨nofun, fun _ => ⟨nofun, fun _ => ⟨fun full => if_pos full, fun room => if_neg room⟩⟩⟩
  | held => exact ⟨nofun, fun _ => ⟨fun _ => rfl, fun no => absurd (.inl rfl) no⟩⟩
  | grace => exact ⟨nofun, fun _ => ⟨fun _ => rfl, fun no => absurd (.inr rfl) no⟩⟩
  | shared => exact ⟨nofun, fun _ => ⟨fun _ => rfl, fun no => absurd (.inl rfl) no⟩⟩

theorem adoptRefusal_eq (s : State) (m : Mid) (l : Lease) :
    adoptRefusal s m l =
      recoveryRefusal l.hold ((s.master m).quota ≤ (s.master m).held + (s.master m).waiting) (.bare .quota) := by
  unfold adoptRefusal recoveryRefusal
  cases l.hold <;> rfl

end

/-! ### RENEW -/

theorem renewRefusal_of_closed (closed : l.hold.closed = true) : renewRefusal m l = some (.bare .wrongState) :=
  if_pos closed

theorem renewRefusal_of_holder (live : l.hold.closed = false) (holder : l.hold.owner? = some m ∨ l.hold.shares m = true) :
    renewRefusal m l = none := by
  rw [renewRefusal, if_neg (by rw [live]; exact Bool.false_ne_true), if_pos holder]

theorem renewRefusal_of_other (live : l.hold.closed = false) (owner : l.hold.owner? ≠ some m)
    (shares : l.hold.shares m = false) : renewRefusal m l = some (.bare .notOwner) := by
  rw [renewRefusal, if_neg (by rw [live]; exact Bool.false_ne_true), if_neg]
  rw [shares]
  exact fun holder => holder.elim owner Bool.false_ne_true

/-- A RENEW that is not refused restarts the term (R80 to R82). -/
theorem rewrites_renew (served : s.Served) (attached : (s.master m).state = .attached) (names : s.Names m k l)
    (accepted : renewRefusal m l = none) {n : Nat}
    (term : s.clampTerm l.range.pool (if (s.win m).argTerm = 0 then l.hold.grantedTerm m else (s.win m).argTerm) = n) :
    s.Rewrites (.renew m) m 0x12 (.items (if l.hold.state = .grace then .late else .ok) (s.win m).argHandle.toNat n) k
      { l with hold := l.hold.renewed m n } := by
  refine rewrites_of_touches (r := .renew) served ?_ (touches_setLease _ _ _)
  refine (renewRule_found ((standing_takeRequest ..).trans (standing_of_attached attached)) (lookup_taken names _)).trans ?_
  rw [accepted, unlessRefused_none, argTerm_takeRequest, argHandle_takeRequest, ← term]
  rfl

/-- The requester's own entry on a sharer list. -/
theorem find_own {older younger : List Sharer} {e : Sharer} (own : e.master = m)
    (apart : ∀ x ∈ older ++ younger, x.master ≠ m) :
    ((older ++ e :: younger).find? fun e => e.master = m) = some e := by
  have before : (older.find? fun e => e.master = m) = none :=
    List.find?_eq_none.2 fun x mem => by simpa using apart x (List.mem_append_left _ mem)
  rw [List.find?_append, before, List.find?_cons_of_pos (by simpa using own), Option.none_or]

/-- A renewal restarts that entry alone (R82). -/
theorem renewed_of_split {older younger : List Sharer} {e : Sharer} (own : e.master = m)
    (apart : ∀ x ∈ older ++ younger, x.master ≠ m) (n : Nat) :
    (Hold.shared (older ++ e :: younger)).renewed m n = .shared (older ++ { e with term := Term.start n } :: younger) := by
  have kept : ∀ es : List Sharer, (∀ x ∈ es, x ∈ older ++ younger) →
      (es.map fun e => if e.master = m then { e with term := Term.start n } else e) = es :=
    fun es sub => (List.map_congr_left fun x mem => if_neg (apart x (sub x mem))).trans (List.map_id' es)
  rw [Hold.renewed, List.map_append, List.map_cons, kept older fun _ => List.mem_append_left _,
    kept younger fun _ => List.mem_append_right _, if_pos own]

end State

end Sys2Proof.Machine

namespace Sys2Proof.Proofs

open Sys2Proof.Machine

/-- Settles O18. -/
theorem renewRestartsTerm : Obligations.RenewRestartsTerm := by
  intro s m k l served attached names h asked new start
  have refuses : ∀ {a : Answer}, renewRefusal m l = some a → s.AnsweredOnly (.renew m) m 0x12 a := fun refused =>
    State.answeredOnly_of_request (r := .renew) served
      ((State.renewRule_found ((State.standing_takeRequest ..).trans (State.standing_of_attached attached))
        (State.lookup_taken names _)).trans (by rw [refused, State.unlessRefused_some]))
  have renews := fun accepted n term =>
    State.rewrites_renew (k := k) (l := l) served attached names accepted (n := n) term
  refine ⟨fun closed => refuses (State.renewRefusal_of_closed closed), fun o owner other => ?_, fun es hold others => ?_,
    fun tag n c hold => ?_, fun tag n c left hold => ?_, fun older e younger hold own apart => ?_⟩
  · have exclusive := (Hold.kind_of_owner owner).2.1
    refine refuses (State.renewRefusal_of_other exclusive (by rw [owner]; exact mt Option.some.inj other) ?_)
    refine Bool.eq_false_iff.2 fun shares => ?_
    obtain ⟨es, hold⟩ := State.shared_of_shares shares
    rw [hold] at owner
    cases owner
  · refine refuses (State.renewRefusal_of_other (by rw [hold]; rfl) (by rw [hold]; nofun) ?_)
    refine Bool.eq_false_iff.2 fun shares => ?_
    rw [hold, State.shares_iff] at shares
    obtain ⟨e, mem, own⟩ := List.mem_map.1 shares
    exact others e mem own
  · have accepted := State.renewRefusal_of_holder (m := m) (l := l) (by rw [hold]; rfl) (.inl (by rw [hold]; rfl))
    have done := renews accepted (new n) (by rw [hold]; rfl)
    rw [hold] at done
    exact done
  · have accepted := State.renewRefusal_of_holder (m := m) (l := l) (by rw [hold]; rfl) (.inl (by rw [hold]; rfl))
    have done := renews accepted (new n) (by rw [hold]; rfl)
    rw [hold] at done
    exact done
  · have accepted := State.renewRefusal_of_holder (m := m) (l := l) (by rw [hold]; rfl)
      (.inr (by rw [hold]; exact Hold.shares_of_split own))
    have granted : l.hold.grantedTerm m = e.term.granted := by
      rw [hold, Hold.grantedTerm, State.find_own own apart]
      rfl
    have done := renews accepted (new e.term) (by rw [granted])
    rw [hold, State.renewed_of_split own apart] at done
    exact done

/-- Settles O19. -/
theorem revokeEndsLease : Obligations.RevokeEndsLease := by
  intro s k l served attached names m h
  have standing : (s.takeRequest m Request.revoke.code).supervisorStanding m = none :=
    (State.supervisorStanding_takeRequest ..).trans (State.supervisorStanding_of_attached attached)
  have found := State.lookup_taken names Request.revoke.code
  refine ⟨fun state => ?_, fun state => ?_, fun o owner => ?_, fun es hold => ?_⟩
  · refine State.answeredOnly_of_request (r := .revoke) served (State.revokeRule_refused standing found ?_)
    cases hold : l.hold with
    | tainted => rw [revokeRefusal, hold]
    | held | grace | scrub | shared => rw [hold] at state; cases state
  · refine State.answeredOnly_of_request (r := .revoke) served (State.revokeRule_refused standing found ?_)
    cases hold : l.hold with
    | scrub => rw [revokeRefusal, hold]
    | held | grace | tainted | shared => rw [hold] at state; cases state
  · have rule := State.revokeRule_of_owner standing found owner
    have taint := State.touches_taintSlot (s := s.takeRequest m Request.revoke.code) names.2 owner
    have tell := State.touches_notifyAll ((s.takeRequest m Request.revoke.code).taintSlot k) k .revoked (o :: l.hold.chain)
    rw [taint.lease_same, Option.map_some, State.raised_congr taint.attached] at tell
    have touches := taint.thenLease tell
    obtain ⟨w, b, run, frame, answered⟩ := State.answered_of_touches (r := .revoke) served rule touches
    obtain ⟨tag, taints, own⟩ : ∃ tag, l.hold.taint = .tainted o tag ∧ l.hold.tagOf o = some tag := by
      cases hold : l.hold with
      | held o' tag n c | grace o' tag n c left =>
        rw [hold] at owner
        obtain rfl := Option.some.inj owner
        exact ⟨tag, rfl, if_pos rfl⟩
      | tainted | scrub | shared => rw [hold] at owner; cases owner
    rw [taints] at touches
    rw [State.argHandle_takeRequest] at answered
    exact ⟨_, tag, run, frame, own, touches.leaseBecomes, touches.masterBecomes, answered⟩
  · have rule := State.revokeRule_of_shared standing found hold
    have tell := State.touches_notifyAll (s.takeRequest m Request.revoke.code) k .revoked (es.map Sharer.master)
    rw [State.lease_takeRequest, names.2] at tell
    have touches := tell.andThen (State.touches_freeSlot tell.lease_same)
    obtain ⟨t, run, pass, frame, lease, master, answered⟩ := State.passOf_of_touches (r := .revoke) served rule touches
    rw [hold] at master
    rw [State.argHandle_takeRequest] at answered
    exact ⟨t, _, run, pass, frame, lease, master, answered⟩

/-- Settles O40. -/
theorem adoptTakesOver : Obligations.AdoptTakesOver := by
  intro s k l served attached names m h x n
  have standing : (s.takeRequest m Request.adopt.code).supervisorStanding m = none :=
    (State.supervisorStanding_takeRequest ..).trans (State.supervisorStanding_of_attached attached)
  have rule := State.adoptRule_found standing (State.lookup_taken names Request.adopt.code)
  have refuses : ∀ {a : Answer}, adoptRefusal (s.takeRequest m Request.adopt.code) m l = some a →
      s.AnsweredOnly (.adopt m) m 0x53 a := fun refused =>
    State.answeredOnly_of_request (r := .adopt) served (rule.trans (by rw [refused, State.unlessRefused_some]))
  rw [State.adoptRefusal_eq, State.master_takeRequest] at rule
  refine (State.recoveryRefusal_rows l.hold (.bare .quota)).mono
    (fun _ refused => State.answeredOnly_of_request (r := .adopt) served
      (rule.trans (by rw [refused, State.unlessRefused_some])))
    fun accepted o tag hold => ?_
  rw [accepted, State.unlessRefused_none, State.argHandle_takeRequest, State.pool_takeRequest, hold] at rule
  obtain ⟨w, b, run, answered⟩ := State.answered_of_request (r := .adopt) served rule rfl
  have touches := State.touches_setLease (s.takeRequest m Request.adopt.code) k
    { l with hold := .held m tag { granted := n, remaining := n, warned := false } [] }
  exact ⟨_, run, rfl, touches.leaseBecomes, State.masterBecomes_setMaster _ m _, answered⟩

end Sys2Proof.Proofs

end

section
/-! PROOF. What accepted RELEASE, DOWNGRADE, UPGRADE, LEND, RETURN and RECALL change (R88 to R103). -/

namespace Sys2Proof.Machine

/-- A chain replaced in a lease in HELD or GRACE. -/
theorem Hold.withChain_of_owner {h : Hold} {o : Mid} (owner : h.owner? = some o) (c : List Mid) :
    (h.withChain c).chain = c ∧ (h.withChain c).userItem = (c.getLast?.getD o).val := by
  have user := State.currentUser_withChain (c := c) owner
  refine ⟨?_, by rw [Hold.userItem, user]; rfl⟩
  cases h with
  | held | grace => rfl
  | tainted | scrub | shared => cases owner

theorem count_one (o n : Mid) : [o].count n = if n = o then 1 else 0 := by
  by_cases same : n = o
  · rw [if_pos same, same, List.count_singleton_self]
  · rw [if_neg same, List.count_eq_zero.2 (mt List.mem_singleton.1 same)]

namespace State

variable {s t u : State} {m n o : Mid} {k : SlotIx} {l : Lease} {r : Request} {a : Answer}

/-! ### The rules on the lease named -/

section
variable (standing : u.standing m = none) (found : u.lookup (u.win m).argHandle = some (k, l))
include standing found

/-- RELEASE of a membership (R90). -/
theorem releaseRule_of_shared (accepted : releaseRefusal m (u.win m).argHandle l = none) (shared : l.hold.mode = .shared) :
    releaseRule u m = (((u.dropNotice k m).endMembership k m).grantPass,
      .items .ok (u.win m).argHandle.toNat Mode.shared.code (((u.dropNotice k m).endMembership k m).slot k).state.code
        (((((u.dropNotice k m).endMembership k m).lease k).map fun l => l.hold.sharers.length).getD 0)) := by
  unfold releaseRule
  rw [standing]
  refine (onLease_found _ found).trans ?_
  rw [accepted, unlessRefused_none, shared]
  rfl

/-- RELEASE by an owner (R89). -/
theorem releaseRule_of_exclusive (accepted : releaseRefusal m (u.win m).argHandle l = none)
    (exclusive : l.hold.mode = .exclusive) :
    releaseRule u m = (((u.dropNotice k m).freeSlot k).grantPass,
      .items .ok (u.win m).argHandle.toNat Mode.exclusive.code (((u.dropNotice k m).freeSlot k).slot k).state.code
        (((((u.dropNotice k m).freeSlot k).lease k).map fun l => l.hold.sharers.length).getD 0)) := by
  unfold releaseRule
  rw [standing]
  refine (onLease_found _ found).trans ?_
  rw [accepted, unlessRefused_none, exclusive]
  rfl

/-- DOWNGRADE (R93). -/
theorem downgradeRule_accepted (accepted : downgradeRefusal m (u.win m).argHandle l = none) :
    downgradeRule u m = ((u.setLease k { l with hold := l.hold.downgraded }).grantPass,
      .items .ok (u.win m).argHandle.toNat l.hold.remaining
        ((((u.setLease k { l with hold := l.hold.downgraded }).grantPass.lease k).map
          fun l => l.hold.sharers.length).getD 0)) := by
  unfold downgradeRule
  rw [standing]
  refine (onLease_found _ found).trans ?_
  rw [accepted, unlessRefused_none]

/-- UPGRADE (R95). -/
theorem upgradeRule_accepted (accepted : upgradeRefusal u m (u.win m).argHandle k l = none) :
    upgradeRule u m = (u.setLease k { l with hold := l.hold.upgraded },
      .items .ok (u.win m).argHandle.toNat l.hold.upgraded.remaining l.hold.upgraded.granted) := by
  unfold upgradeRule
  rw [standing]
  refine (onLease_found _ found).trans ?_
  rw [accepted, unlessRefused_none]

/-- LEND (R99). -/
theorem lendRule_accepted {d : Mid} (delegate : (u.win m).argDelegate = d) (owner : l.hold.owner? = some o)
    (accepted : lendRefusal u m d (u.win m).argHandle l = none) :
    lendRule u m =
      ((u.setLease k { l with hold := l.hold.withChain (l.hold.chain ++ [d]) }).notify k .delegated d,
        .items .ok (u.win m).argHandle.toNat (l.hold.chain.length + 1) d.val) := by
  obtain ⟨chain, user⟩ := Hold.withChain_of_owner owner (l.hold.chain ++ [d])
  unfold lendRule
  rw [standing]
  refine (onLease_found _ found).trans ?_
  rw [delegate, accepted, unlessRefused_none]
  dsimp only
  rw [chain, user, List.length_append, List.getLast?_concat]
  rfl

/-- RETURN (R101). -/
theorem returnRule_accepted {c : List Mid} (owner : l.hold.owner? = some o) (back : l.hold.chain.dropLast = c)
    (accepted : returnRefusal m (u.win m).argHandle l = none) :
    returnRule u m =
      ((u.setLease k { l with hold := l.hold.withChain c }).notifyUser k .returned (l.hold.withChain c),
        .items .ok (u.win m).argHandle.toNat c.length (c.getLast?.getD o).val) := by
  obtain ⟨chain, user⟩ := Hold.withChain_of_owner owner c
  unfold returnRule
  rw [standing]
  refine (onLease_found _ found).trans ?_
  rw [accepted, unlessRefused_none]
  dsimp only
  rw [back, chain, user]

/-- RECALL (R103). -/
theorem recallRule_accepted (accepted : recallRefusal m (u.win m).argHandle l = none) :
    recallRule u m =
      ((u.setLease k { l with hold := l.hold.withChain [] }).notifyAll k .recalled l.hold.chain,
        .items .ok (u.win m).argHandle.toNat l.hold.chain.length) := by
  unfold recallRule
  rw [standing]
  refine (onLease_found _ found).trans ?_
  rw [accepted, unlessRefused_none]

end

/-! ### Accepted requests -/

/-- A RELEASE by a holder of an unlent lease in HELD or GRACE is accepted (R88). -/
theorem releaseRefusal_of_holder {h : Handle} (live : l.hold.closed = false)
    (holder : l.hold.owner? = some m ∨ l.hold.shares m = true) (unlent : l.hold.chain = []) :
    releaseRefusal m h l = none := by
  rw [releaseRefusal, if_neg (by rw [live]; exact Bool.false_ne_true), if_neg (not_not.2 holder),
    if_neg (not_not.2 unlent)]

/-- A lease kept SHARED by a grant pass, which at most joins it (R63). -/
theorem shared_of_grantPass {es : List Sharer} (holds : s.lease k = some l) (hold : l.hold = .shared es) :
    ∃ es', (s.grantPass.lease k).map (fun l => l.hold) = some (.shared es') ∧
      (s.grantPass.lease k).map (fun l => l.hold.sharers.length) = some es'.length := by
  have kept : ∃ l', s.grantPass.lease k = some l' ∧ l'.hold.mode = .shared := by
    refine grantPass_induction (P := fun t => ∃ l', t.lease k = some l' ∧ l'.hold.mode = .shared) ?_ ⟨l, holds, by rw [hold]; rfl⟩
    rintro t _ ⟨-, place⟩ ⟨l, holds, shared⟩
    obtain ⟨l', holds', -, mode, -⟩ := (grants_grantInPass (passPlace_eq_some place).2.2).kept holds
    exact ⟨l', holds', mode.trans shared⟩
  obtain ⟨l', holds', shared⟩ := kept
  rw [holds']
  cases hold : l'.hold with
  | shared es' => exact ⟨es', by rw [Option.map_some, hold], by rw [Option.map_some, hold]; rfl⟩
  | held | grace | tainted | scrub => rw [hold] at shared; cases shared

end State

end Sys2Proof.Machine

namespace Sys2Proof.Proofs

open Sys2Proof.Machine

/-- Settles O23. -/
theorem releaseGivesUp : Obligations.ReleaseGivesUp := by
  intro s m k l served attached names h less frees gone
  have standing : (s.takeRequest m Request.release.code).standing m = none :=
    (State.standing_takeRequest ..).trans (State.standing_of_attached attached)
  have found := State.lookup_taken names Request.release.code
  have drop := State.touches_dropNotice (s.takeRequest m Request.release.code) k m
  rw [State.lease_takeRequest, names.2, Option.map_some] at drop
  have loses : ∀ {u : State}, (s.takeRequest m Request.release.code).Touches k none (fun n => if n = m then 1 else 0)
      (fun n => (l.notices.set m none)[n]) u → frees u := fun {u} touches => by
    refine ⟨touches.leaseBecomes, (touches.master m).trans ?_, fun n other => (touches.master n).trans ?_⟩
    · rw [if_pos rfl, State.notices_set_get, if_pos rfl]
      rfl
    · rw [if_neg other, State.notices_set_get, if_neg other.symm]
      rfl
  refine ⟨fun owner unlent => ?_, fun older e younger hold own apart => ?_⟩
  · obtain ⟨exclusive, live, -⟩ := Hold.kind_of_owner owner
    have rule := State.releaseRule_of_exclusive standing found
      (State.releaseRefusal_of_holder live (.inl owner) unlent) exclusive
    have touches := (drop.andThen (State.touches_freeSlot drop.lease_same)).cast (lost' := fun n => if n = m then 1 else 0)
      rfl (fun n => by rw [(State.taint_of_owner owner).2.2.2, count_one]) fun _ => rfl
    rw [touches.slot, if_pos rfl, State.lease, touches.slot, if_pos rfl, State.argHandle_takeRequest] at rule
    obtain ⟨t, run, pass, frame, -, -, answered⟩ := State.passOf_of_touches (r := .release) served rule touches
    exact ⟨t, _, run, pass, frame, loses touches, answered⟩
  · have shares := Hold.shares_of_split (older := older) (younger := younger) own
    have rule := State.releaseRule_of_shared standing found
      (State.releaseRefusal_of_holder (by rw [hold]; rfl) (.inr (hold ▸ shares)) (by rw [hold]; rfl)) (by rw [hold]; rfl)
    refine ⟨fun last => ?_, fun more => ?_⟩
    · have touches := State.touches_endMembership_sole hold own apart drop last
      rw [touches.slot, if_pos rfl, State.lease, touches.slot, if_pos rfl, State.argHandle_takeRequest] at rule
      obtain ⟨t, run, pass, frame, -, -, answered⟩ := State.passOf_of_touches (r := .release) served rule touches
      exact ⟨t, _, run, pass, frame, loses touches, answered⟩
    · have touches := State.touches_endMembership_shared hold own apart drop more
      rw [touches.slot, if_pos rfl, State.lease, touches.slot, if_pos rfl, State.argHandle_takeRequest] at rule
      obtain ⟨t, run, pass, frame, lease, -, answered⟩ := State.passOf_of_touches (r := .release) served rule touches
      exact ⟨t, _, run, pass, frame, ⟨lease, touches.masterBecomes⟩, answered⟩

/-- Settles O24. -/
theorem downgradeShares : Obligations.DowngradeShares := by
  intro s m k l tag n served attached names hold
  have rows := downgradeRefusal_rows m (s.win m).argHandle l
  have accepted := (((rows.2 (by rw [hold]; nofun)).2 (by rw [hold]; exact not_not.2 rfl)).2
    (by rw [hold]; exact not_not.2 rfl)).2 (by rw [hold]; exact not_not.2 rfl)
  have rule := State.downgradeRule_accepted ((State.standing_takeRequest ..).trans (State.standing_of_attached attached))
    (State.lookup_taken names Request.downgrade.code) (by rw [State.argHandle_takeRequest]; exact accepted)
  have down : l.hold.downgraded = .shared [{ master := m, tag := tag, term := n }] := by rw [hold]; rfl
  rw [down, State.argHandle_takeRequest, show l.hold.remaining = n.remaining by rw [hold]; rfl] at rule
  have touches := State.touches_setLease (s.takeRequest m Request.downgrade.code) k
    { l with hold := .shared [{ master := m, tag := tag, term := n }] }
  obtain ⟨es, shared, counted⟩ := State.shared_of_grantPass touches.lease_same rfl
  rw [counted, Option.getD_some] at rule
  obtain ⟨t, run, pass, -, lease, -, answered⟩ := State.passOf_of_touches (r := .downgrade) served rule touches
  refine ⟨t, _, es, run, pass, rfl, lease, ?_, answered⟩
  rw [show t.lease k = _ from congrArg (fun x : State => x.lease k) pass]
  exact shared

/-- Settles O25. -/
theorem upgradeOwns : Obligations.UpgradeOwns := by
  intro s m k l e served attached names hold own apart
  have alone : (s.takeRequest m Request.upgrade.code).otherOverlap k l = none :=
    State.otherOverlap_of_none fun j ⟨other, l', holds, overlaps⟩ => by
      rw [apart j l' other holds] at overlaps; cases overlaps
  have rows := upgradeRefusal_rows (s.takeRequest m Request.upgrade.code) m (s.win m).argHandle k l
  have accepted := ((rows.2 (by rw [hold]; nofun)).2
    (by rw [hold, State.shares_iff.2 (List.mem_singleton.2 own.symm)]; nofun)).2 fun ⟨x, mem, other⟩ => by
      rw [hold] at mem; exact other (List.mem_singleton.1 mem ▸ own)
  rw [alone] at accepted
  have rule := State.upgradeRule_accepted ((State.standing_takeRequest ..).trans (State.standing_of_attached attached))
    (State.lookup_taken names Request.upgrade.code) (by rw [State.argHandle_takeRequest]; exact accepted)
  have up : l.hold.upgraded = .held m e.tag e.term [] := by rw [hold, ← own]; rfl
  rw [up, State.argHandle_takeRequest] at rule
  exact State.rewrites_of_touches (r := .upgrade) served rule (State.touches_setLease ..)

/-- Settles O26. -/
theorem lendReturnRecall : Obligations.LendReturnRecall := by
  intro s m k l o served attached names owner h d
  have standing : ∀ code, (s.takeRequest m code).standing m = none := fun code =>
    (State.standing_takeRequest ..).trans (State.standing_of_attached attached)
  obtain ⟨exclusive, live, -⟩ := Hold.kind_of_owner owner
  have notShared : l.hold.mode ≠ .shared := by rw [exclusive]; nofun
  have notClosed : ¬(l.hold.state = .tainted ∨ l.hold.state = .scrub) := by
    rw [Hold.closed_iff, live]; exact Bool.false_ne_true
  have user : l.hold.currentUser? = some (l.hold.chain.getLast?.getD o) := by rw [Hold.currentUser?, owner]
  refine ⟨fun state last delegate other fresh room => ?_, fun c chain => ?_, fun own lent => ?_⟩
  · have accepted := ((((((lendRefusal_rows (s.takeRequest m Request.lend.code) m d (s.win m).argHandle l).2 notShared).2
      (not_not.2 state)).2 (not_not.2 (user.trans (congrArg some last)))).2 (not_not.2 delegate)).2
      (by rw [owner]; exact fun is => is.elim (fun same => other (Option.some.inj same).symm) fresh)).2 (Nat.not_le.2 room)
    have rule := State.lendRule_accepted (standing _) (State.lookup_taken names Request.lend.code)
      (State.argDelegate_takeRequest ..) owner (by rw [State.argHandle_takeRequest]; exact accepted)
    rw [State.argHandle_takeRequest] at rule
    have set := State.touches_setLease (s.takeRequest m Request.lend.code) k
      { l with hold := l.hold.withChain (l.hold.chain ++ [d]) }
    have tell := State.touches_notify ((s.takeRequest m Request.lend.code).setLease k
      { l with hold := l.hold.withChain (l.hold.chain ++ [d]) }) k .delegated d
    rw [set.lease_same, Option.map_some, State.raised_attached ((congrFun set.attached d).trans (decide_eq_true delegate))] at tell
    exact State.rewrites_of_touches (r := .lend) served rule (set.andThen tell)
  · have accepted := ((((returnRefusal_rows m (s.win m).argHandle l).2 notShared).2 notClosed).2
      (by rw [chain]; exact List.append_ne_nil_of_right_ne_nil _ (List.cons_ne_nil _ _))).2
      (by rw [chain, List.getLast?_concat]; exact not_not.2 rfl)
    have rule := State.returnRule_accepted (standing _) (State.lookup_taken names Request.giveBack.code) owner
      (by rw [chain, List.dropLast_concat]) (by rw [State.argHandle_takeRequest]; exact accepted)
    rw [State.argHandle_takeRequest] at rule
    have set := State.touches_setLease (s.takeRequest m Request.giveBack.code) k { l with hold := l.hold.withChain c }
    have tell := State.touches_notifyUser ((s.takeRequest m Request.giveBack.code).setLease k
      { l with hold := l.hold.withChain c }) k .returned (l.hold.withChain c)
    rw [set.lease_same, Option.map_some, State.currentUser_withChain owner] at tell
    exact State.rewrites_of_touches (r := .giveBack) served rule (set.andThen tell)
  · have accepted := ((((recallRefusal_rows m (s.win m).argHandle l).2 notShared).2 notClosed).2
      (by rw [owner, own]; exact not_not.2 rfl)).2 lent
    have rule := State.recallRule_accepted (standing _) (State.lookup_taken names Request.recall.code)
      (by rw [State.argHandle_takeRequest]; exact accepted)
    rw [State.argHandle_takeRequest] at rule
    have set := State.touches_setLease (s.takeRequest m Request.recall.code) k { l with hold := l.hold.withChain [] }
    have tell := State.touches_notifyAll ((s.takeRequest m Request.recall.code).setLease k
      { l with hold := l.hold.withChain [] }) k .recalled l.hold.chain
    rw [set.lease_same, Option.map_some] at tell
    exact State.rewrites_of_touches (r := .recall) served rule (set.andThen tell)

end Sys2Proof.Proofs

end

section
/-! PROOF. INSPECT: its checks, the next live slot, and the fields of its answers (R35 to R38, Table 10-6). -/

namespace Sys2Proof.Machine

/-! ### The slots after a slot (R38) -/

/-- The `n`-th slot after `k`, counting from 0 and wrapping round. -/
def slotAfter (k : SlotIx) (n : Nat) : SlotIx := k + Fin.ofNat 32 (n + 1)

theorem slotsAfter_eq : ∀ k : SlotIx, slotsAfter k = (List.range 31).map (slotAfter k) := by decide

/-- How far a slot after `k` lies behind it. -/
theorem slotAfter_sub {n : Nat} (small : n < 31) (k : SlotIx) : (slotAfter k n - k).val = n + 1 := by
  rw [slotAfter, add_sub_cancel_left, Fin.val_ofNat, Nat.mod_eq_of_lt (by omega)]

theorem slotAfter_ne {n : Nat} (small : n < 31) (k : SlotIx) : slotAfter k n ≠ k := fun same => by
  have apart := slotAfter_sub small k
  rw [same, sub_self] at apart
  cases apart

/-- Every other slot is among them. -/
theorem exists_slotAfter {j k : SlotIx} (other : j ≠ k) : ∃ n, n < 31 ∧ n + 1 = (j - k).val ∧ slotAfter k n = j := by
  have positive : 0 < (j - k).val := Nat.pos_of_ne_zero fun zero => other (sub_eq_zero.1 (Fin.ext zero))
  refine ⟨(j - k).val - 1, by omega, by omega, ?_⟩
  rw [slotAfter, Nat.sub_add_cancel positive, Fin.ofNat_val_eq_self, add_sub_cancel]

namespace State

variable {s t u : State} {m n : Mid} {k j : SlotIx} {l : Lease}

/-- With no other lease there is no next live slot. -/
theorem nextLive_of_alone (alone : ∀ i, i ≠ k → s.lease i = none) : s.nextLive k = none := by
  rw [nextLive, slotsAfter_eq, List.find?_eq_none]
  rintro _ mem
  obtain ⟨n, small, rfl⟩ := List.mem_map.1 mem
  rw [alone _ (slotAfter_ne (List.mem_range.1 small) k)]
  exact Bool.false_ne_true

/-- The next live slot is the nearest behind `k` that is not FREE. -/
theorem nextLive_of_nearest (other : j ≠ k) (live : s.lease j ≠ none)
    (nearest : ∀ i, i ≠ k → s.lease i ≠ none → (j - k).val ≤ (i - k).val) : s.nextLive k = some j := by
  obtain ⟨n, small, place, rfl⟩ := exists_slotAfter other
  have found : ((List.range 31).find? fun n => (s.lease (slotAfter k n)).isSome) = some n := by
    refine List.find?_range_eq_some.2 ⟨Option.isSome_iff_ne_none.2 live, List.mem_range.2 small, fun i lower => ?_⟩
    by_contra occupied
    have small' : i < 31 := lower.trans small
    have far := nearest _ (slotAfter_ne small' k) (by simpa using occupied)
    rw [slotAfter_sub small', ← place] at far
    omega
  rw [nextLive, slotsAfter_eq, List.find?_map]
  exact congrArg (Option.map (slotAfter k)) found

end State

/-! ### The fields of an INSPECT answer -/

@[simp] theorem SlotState.code_mod_eight (x : SlotState) : x.code % 8 = x.code := by cases x <;> rfl

@[simp] theorem Mode.code_mod_two (x : Mode) : x.code % 2 = x.code := by cases x <;> rfl

/-- A field inside the place of a number reads the bits of that number there. -/
theorem field_place_inside {v lo width : Nat} (fits : lo + width ≤ 32) {i : Nat} (inside : i < width) :
    field (place v lo width) (lo + i) 1 = v / 2 ^ i % 2 := by
  rw [field, BitVec.extractLsb'_toNat, toNat_place fits, Nat.shiftRight_eq_div_pow, pow_add, Nat.mul_comm (v % _),
    Nat.mul_div_mul_left _ _ (by positivity), pow_one]
  obtain ⟨d, rfl⟩ := Nat.exists_eq_add_of_lt inside
  rw [Nat.add_assoc, pow_add, Nat.mod_mul_right_div_self, pow_succ', Nat.mod_mul_right_mod]

theorem two_zero_halves : place 0 0 16 ||| place 0 16 16 = 0 := rfl

/-- A SHARED lease's sub-records are its sharers, an EXCLUSIVE one's the frames of its chain (R37). -/
theorem Hold.subRecord_of_shared (es : List Sharer) (i : Nat) :
    (Hold.shared es).subRecord i = es[i - 1]?.map fun e => (e.master.val, e.tag.toNat, e.term) := rfl

theorem Hold.subRecord_of_exclusive {h : Hold} (exclusive : h.mode = .exclusive) (i : Nat) :
    h.subRecord i = h.chain[i - 1]?.map fun d => (d.val, 0, { granted := 0, remaining := 0, warned := false }) := by
  cases h with
  | shared => cases exclusive
  | held | grace | tainted | scrub => rfl

/-- The set's word has a bit for each master with an entry in it (Table 2-6). -/
theorem NoticeSet.masters_bit (ns : NoticeSet) (n : Mid) : ns.masters / 2 ^ n.val % 2 = flag ns[n].isSome := by
  have small : ∀ m : Mid, flag ns[m].isSome < 2 := fun m => by cases ns[m].isSome <;> decide
  have list : allMasters = [0, 1, 2, 3, 4, 5, 6, 7] := by decide
  generalize bits : (fun m : Mid => flag ns[m].isSome) = b
  have bit : ∀ m : Mid, flag ns[m].isSome = b m := congrFun bits
  simp only [bit] at small
  rw [masters, list]
  simp only [bit, List.foldl_cons, List.foldl_nil]
  have b0 := small 0
  have b1 := small 1
  have b2 := small 2
  have b3 := small 3
  have b4 := small 4
  have b5 := small 5
  have b6 := small 6
  have b7 := small 7
  revert b0 b1 b2 b3 b4 b5 b6 b7
  fin_cases n <;> simp <;> omega

namespace State

variable {s t u : State} {m n : Mid} {k j : SlotIx} {l : Lease}

/-- VAL0 of every INSPECT answer (Table 10-6). -/
theorem inspectHead_fields (s : State) (k : SlotIx) :
    field (s.inspectHead k) 0 16 = (s.handle k).toNat ∧ field (s.inspectHead k) 16 3 = (s.slot k).state.code ∧
      field (s.inspectHead k) 19 1 = (s.slot k).mode.code ∧ field (s.inspectHead k) 25 6 = slotCode (s.nextLive k) ∧
      field (s.inspectHead k) 20 4 = ((s.lease k).map fun l => l.hold.depthOrSharers).getD 0 % 16 ∧
      field (s.inspectHead k) 24 1 = flag (((s.lease k).map fun l => l.hold.termItems.warned).getD false) := by
  have handle : (s.handle k).toNat % 65536 = (s.handle k).toNat := Nat.mod_eq_of_lt (s.handle k).isLt
  have state : (s.slot k).state = match s.lease k with | none => .free | some l => l.hold.state := rfl
  have mode : (s.slot k).mode = match s.lease k with | none => .shared | some l => l.hold.mode := rfl
  rw [state, mode, inspectHead]
  cases s.lease k with
  | none =>
    refine ⟨?_, ?_, ?_, ?_, ?_, ?_⟩ <;>
      simp (disch := omega) [field_or, field_place, field_place_apart, handle, SlotState.code, Mode.code, flag]
  | some l =>
    refine ⟨?_, ?_, ?_, ?_, ?_, ?_⟩ <;>
      simp (disch := omega) [field_or, field_place, field_place_apart, handle]

/-- The summary of a lease (R36, Table 10-6). -/
theorem inspectSummary_fields (holds : s.lease k = some l) :
    (field (s.inspectSummary k).val1 0 16 = l.range.first % 2 ^ 16 ∧
      field (s.inspectSummary k).val1 16 13 = l.range.count % 2 ^ 13 ∧
      field (s.inspectSummary k).val1 29 2 = l.range.pool.val) ∧
    (s.inspectSummary k).val2 = place l.hold.termItems.granted 0 16 ||| place l.hold.termItems.remaining 16 16 ∧
    field (s.inspectSummary k).val2 0 16 = l.hold.termItems.granted % 2 ^ 16 ∧
    field (s.inspectSummary k).val2 16 16 = l.hold.termItems.remaining % 2 ^ 16 ∧
    field (s.inspectSummary k).val3 0 3 = l.hold.ownerItems.1 % 8 ∧
    field (s.inspectSummary k).val3 4 3 = ((l.hold.currentUser?.map Fin.val).getD 0) % 8 ∧
    field (s.inspectSummary k).val3 8 8 = l.hold.ownerItems.2 % 256 ∧
    (∀ n : Mid, field (s.inspectSummary k).val3 (16 + n.val) 1 = flag l.notices[n].isSome) ∧
    field (s.inspectSummary k).val3 24 8 = l.hold.graceLeft % 2 ^ 8 := by
  have pool : l.range.pool.val % 4 = l.range.pool.val := Nat.mod_eq_of_lt l.range.pool.isLt
  simp only [inspectSummary, holds]
  refine ⟨⟨?_, ?_, ?_⟩, trivial, ?_, ?_, ?_, ?_, ?_, fun n => ?_, ?_⟩
  case refine_9 =>
    have := n.isLt
    simp (disch := omega) only [field_or, field_place_apart, field_place_inside, NoticeSet.masters_bit, Nat.zero_or, Nat.or_zero]
  all_goals simp (disch := omega) [field_or, field_place, field_place_apart, pool]

/-- A sub-record that is present (R37, Table 10-6). -/
theorem inspectSub_fields {i mid tag : Nat} {x : Term} (holds : s.lease k = some l)
    (sub : l.hold.subRecord i = some (mid, tag, x)) :
    (s.inspectSub k i).val3 = 0 ∧ (s.inspectSub k i).val2 = place x.granted 0 16 ||| place x.remaining 16 16 ∧
    field (s.inspectSub k i).val1 0 3 = mid % 8 ∧ field (s.inspectSub k i).val1 8 8 = tag % 256 ∧
    field (s.inspectSub k i).val1 30 1 = flag x.warned ∧ field (s.inspectSub k i).val1 31 1 = 1 ∧
    field (s.inspectSub k i).val2 0 16 = x.granted % 2 ^ 16 ∧ field (s.inspectSub k i).val2 16 16 = x.remaining % 2 ^ 16 := by
  simp only [inspectSub, holds, Option.bind_some, sub]
  refine ⟨trivial, trivial, ?_, ?_, ?_, ?_, ?_, ?_⟩
  all_goals simp (disch := omega) [field_or, field_place, field_place_apart]

theorem inspectSub_of_absent {i : Nat} (absent : ((s.lease k).bind fun l => l.hold.subRecord i) = none) :
    s.inspectSub k i = { Answer.bare .ok with val0 := s.inspectHead k } := by
  simp only [inspectSub, absent]

/-- What INSPECT answers about slot `k`. -/
def inspected (s : State) (k : SlotIx) (i : Nat) : Answer := if i = 0 then s.inspectSummary k else s.inspectSub k i

theorem val0_inspected (s : State) (k : SlotIx) (i : Nat) :
    (s.inspected k i).result = .ok ∧ (s.inspected k i).val0 = s.inspectHead k := by
  unfold inspected inspectSummary inspectSub
  split
  · split <;> exact ⟨rfl, rfl⟩
  · split <;> exact ⟨rfl, rfl⟩

theorem inspected_of_free (free : s.lease k = none) (i : Nat) :
    s.inspected k i = { Answer.bare .ok with val0 := s.inspectHead k } := by
  unfold inspected
  split
  · simp only [inspectSummary, free]
  · exact inspectSub_of_absent (by rw [free]; rfl)

/-- INSPECT past its checks (R35). -/
theorem inspectRule_of_slot (notFenced : u.fenced m = false) (slot : k.val = (u.win m).argSlot)
    (selector : (u.win m).argSelector ≤ 8) : inspectRule u m = (u, u.inspected k (u.win m).argSelector) := by
  have named : Fin.ofNat 32 (u.win m).argSlot = k := by rw [← slot, Fin.ofNat_val_eq_self]
  have within : ¬(31 < (u.win m).argSlot ∨ 8 < (u.win m).argSelector) := by have := k.isLt; omega
  simp only [inspectRule, notFenced, Bool.false_eq_true, if_false, if_neg within, named, inspected]
  split <;> rfl

theorem inspectRule_of_fenced (fenced : u.fenced m = true) : inspectRule u m = (u, .bare .fenced) := if_pos fenced

theorem inspectRule_of_outside (notFenced : u.fenced m = false)
    (outside : 31 < (u.win m).argSlot ∨ 8 < (u.win m).argSelector) : inspectRule u m = (u, .bare .badRange) := by
  simp only [inspectRule, notFenced, Bool.false_eq_true, if_false, if_pos outside]

end State

end Sys2Proof.Machine

namespace Sys2Proof.Proofs

open Sys2Proof.Machine

/-- Settles O29. -/
theorem inspectNextLive : Obligations.InspectNextLive := fun _ _ _ =>
  ⟨fun alone => by rw [State.nextLive_of_alone alone]; rfl,
    fun other live nearest => by rw [State.nextLive_of_nearest other live nearest]; rfl⟩

/-- Settles O28: the rows, and behind them the fields of the packed words, case by case of the hold. -/
theorem inspectReports : Obligations.InspectReports := by
  intro s m served i
  have same : ∀ k, (s.takeRequest m Request.inspect.code).inspected k i = s.inspected k i := fun k => rfl
  have slot := s.argSlot_takeRequest m m Request.inspect.code
  have selector := s.argSelector_takeRequest m m Request.inspect.code
  have state := s.fenced_takeRequest m Request.inspect.code m
  have answers : ∀ {a}, inspectRule (s.takeRequest m Request.inspect.code) m = (s.takeRequest m Request.inspect.code, a) →
      s.AnsweredOnly (.inspect m) m 0x21 a := State.answeredOnly_of_request (r := .inspect) served
  generalize s.takeRequest m Request.inspect.code = y at same slot selector state answers
  refine ⟨fun fenced => answers (State.inspectRule_of_fenced (state.trans (decide_eq_true fenced))), fun notFenced => ?_⟩
  have notFenced : y.fenced m = false := state.trans (decide_eq_false notFenced)
  refine ⟨fun far => answers (State.inspectRule_of_outside notFenced (.inl (by rwa [slot]))), fun near =>
    ⟨fun far => answers (State.inspectRule_of_outside notFenced (.inr (by rwa [selector]))), fun few k place => ?_⟩⟩
  obtain ⟨result, val0⟩ := s.val0_inspected k i
  obtain ⟨handle, slotState, mode, next, depth, warned⟩ := s.inspectHead_fields k
  rw [← val0] at handle slotState mode next depth warned
  refine ⟨s.inspected k i, result, answers ?_, handle, slotState, mode, next, fun free => ?_, fun l holds => ?_⟩
  · rw [State.inspectRule_of_slot notFenced (by rwa [slot]) (by rw [selector]; exact Nat.not_lt.1 few), selector, same]
  · rw [free] at depth warned
    rw [State.inspected_of_free free] at depth warned ⊢
    exact ⟨depth, warned, rfl, rfl, rfl⟩
  rw [holds, Option.map_some, Option.getD_some] at depth warned
  refine ⟨fun o tag n c hold => ?_, fun o tag n c left hold => ?_, fun closed => ?_, fun es hold => ?_, fun zero => ?_,
    fun positive => ?_⟩
  · rw [hold] at depth warned; exact ⟨depth, warned⟩
  · rw [hold] at depth warned; exact ⟨depth, warned⟩
  · cases hold : l.hold with
    | tainted | scrub => rw [hold] at depth warned; exact ⟨depth, warned⟩
    | held | grace | shared => rw [hold] at closed; cases closed
  · rw [hold] at depth warned; exact ⟨depth, warned⟩
  · have summary : s.inspected k i = s.inspectSummary k := if_pos zero
    rw [summary]
    obtain ⟨⟨first, count, pool⟩, terms, granted, remaining, owner, user, tag, notices, grace⟩ :=
      State.inspectSummary_fields holds
    have small : ∀ o : Mid, o.val % 8 = o.val := fun o => Nat.mod_eq_of_lt o.isLt
    have short : ∀ tag : Tag, tag.toNat % 256 = tag.toNat := fun tag => Nat.mod_eq_of_lt tag.isLt
    refine ⟨first, count, pool, notices, fun o g n c hold => ?_, fun o g n c left hold => ?_, fun o g hold => ?_,
      fun es hold => ?_⟩
    · rw [hold] at granted remaining owner user tag grace
      exact ⟨granted, remaining, owner.trans (small o), user.trans (small _), tag.trans (short g), grace⟩
    · rw [hold] at granted remaining owner user tag grace
      exact ⟨granted, remaining, owner.trans (small o), user.trans (small _), tag.trans (short g), grace⟩
    · rcases hold with hold | hold <;> rw [hold] at terms owner user tag grace <;>
        exact ⟨terms.trans two_zero_halves, owner.trans (small o), user, tag.trans (short g), grace⟩
    · rw [hold] at terms owner user tag grace
      exact ⟨terms.trans two_zero_halves, owner, user, tag, grace⟩
  · have sub : s.inspected k i = s.inspectSub k i := if_neg (Nat.pos_iff_ne_zero.1 positive)
    rw [sub]
    have small : ∀ o : Mid, o.val % 8 = o.val := fun o => Nat.mod_eq_of_lt o.isLt
    have short : ∀ tag : Tag, tag.toNat % 256 = tag.toNat := fun tag => Nat.mod_eq_of_lt tag.isLt
    refine ⟨?_, fun es e hold entry => ?_, fun d frame => ?_, fun noSharer noFrame => ?_⟩
    · cases record : l.hold.subRecord i with
      | some x => exact (State.inspectSub_fields holds record).1
      | none => rw [State.inspectSub_of_absent (by rw [holds, Option.bind_some, record])]; rfl
    · have record : l.hold.subRecord i = some (e.master.val, e.tag.toNat, e.term) := by
        rw [hold, Hold.subRecord_of_shared, entry]; rfl
      obtain ⟨-, -, master, tag, warned, present, granted, remaining⟩ := State.inspectSub_fields holds record
      exact ⟨master.trans (small _), tag.trans (short _), warned, present, granted, remaining⟩
    · have exclusive : l.hold.mode = .exclusive := by
        cases hold : l.hold with
        | shared => rw [hold] at frame; cases frame
        | held | grace | tainted | scrub => rfl
      have record := Hold.subRecord_of_exclusive exclusive i
      rw [frame] at record
      obtain ⟨-, terms, master, tag, warned, present, -⟩ := State.inspectSub_fields holds record
      exact ⟨master.trans (small _), tag, warned, present, terms.trans two_zero_halves⟩
    · have record : l.hold.subRecord i = none := by
        cases mode : l.hold.mode with
        | exclusive => rw [Hold.subRecord_of_exclusive mode, noFrame]; rfl
        | shared =>
          obtain ⟨es, hold⟩ : ∃ es, l.hold = .shared es := by
            cases hold : l.hold with
            | shared es => exact ⟨es, rfl⟩
            | held | grace | tainted | scrub => rw [hold] at mode; cases mode
          rw [hold] at noSharer ⊢
          rw [Hold.subRecord_of_shared, show es[i - 1]? = none from noSharer]
          rfl
      rw [State.inspectSub_of_absent (by rw [holds, Option.bind_some, record])]
      exact ⟨rfl, rfl⟩

end Sys2Proof.Proofs

end

section
/-! PROOF. NEXT NOTICE and the attention lines: where a master's items are, and that collecting one takes that one away
(R144 to R150). -/

namespace Sys2Proof.Machine

theorem ClaimEntry.endedOf_iff {m : Mid} {e : ClaimEntry} :
    e.endedOf m = true ↔ e.claim.master = m ∧ e.status = .ended := by
  rw [ClaimEntry.endedOf, Bool.and_eq_true, decide_eq_true_eq, decide_eq_true_eq]

theorem ScrubEntry.finished_iff {e : ScrubEntry} : e.finished = true ↔ e.state.live = false := by
  rw [ScrubEntry.finished, Bool.not_eq_true']

theorem flag_eq_zero_iff {b : Bool} : flag b = 0 ↔ b = false := by cases b <;> decide

/-- The first of a list that passes a test. -/
theorem find_first {α : Type} {p : α → Bool} {older younger : List α} {x : α} (passes : p x = true)
    (first : ∀ y ∈ older, p y ≠ true) : (older ++ x :: younger).find? p = some x := by
  rw [List.find?_append, List.find?_eq_none.2 first, List.find?_cons_of_pos passes, Option.none_or]

theorem eraseP_first {α : Type} {p : α → Bool} {older younger : List α} {x : α} (passes : p x = true)
    (first : ∀ y ∈ older, p y ≠ true) : (older ++ x :: younger).eraseP p = older ++ younger := by
  rw [List.eraseP_append_right _ first, List.eraseP_cons_of_pos passes]

theorem countP_split {α : Type} {p : α → Bool} {older younger : List α} {x : α} (passes : p x = true) :
    (older ++ younger).countP p + 1 = (older ++ x :: younger).countP p := by
  rw [List.countP_append, List.countP_append, List.countP_cons_of_pos passes, Nat.add_assoc]

namespace State

variable {s t u : State} {m n : Mid} {k j : SlotIx} {l : Lease} {a : Answer}

/-! ### The pending items (R144) -/

/-- There is none exactly when none of the four places of Table 8-2 holds one. -/
theorem pendingItems_eq_zero_iff :
    s.pendingItems m = 0 ↔
      (s.master m).orphan = none ∧ (∀ e ∈ s.queue, ¬(e.claim.master = m ∧ e.status = .ended)) ∧
        (∀ k l, s.lease k = some l → l.notices[m] = none) ∧
        ∀ e ∈ s.scrub.list, ¬(m = s.supmid ∧ e.state.live = false) := by
  have orphan : flag (s.master m).orphan.isSome = 0 ↔ (s.master m).orphan = none := by
    rw [flag_eq_zero_iff, Option.isSome_eq_false_iff, Option.isNone_iff_eq_none]
  have queue : s.queue.countP (ClaimEntry.endedOf m) = 0 ↔ ∀ e ∈ s.queue, ¬(e.claim.master = m ∧ e.status = .ended) := by
    rw [List.countP_eq_zero]
    exact forall₂_congr fun e _ => not_congr ClaimEntry.endedOf_iff
  have leases : s.countLeases (fun l => l.notices[m].isSome) = 0 ↔ ∀ k l, s.lease k = some l → l.notices[m] = none := by
    rw [countLeases_eq_zero_iff]
    exact forall₃_congr fun k l _ => by rw [Option.isSome_eq_false_iff, Option.isNone_iff_eq_none]
  have scrub : (if s.isSupervisor m then s.scrub.list.countP ScrubEntry.finished else 0) = 0 ↔
      ∀ e ∈ s.scrub.list, ¬(m = s.supmid ∧ e.state.live = false) := by
    by_cases supervisor : m = s.supmid
    · rw [if_pos (show s.isSupervisor m = true from decide_eq_true supervisor), List.countP_eq_zero]
      exact forall₂_congr fun e _ => not_congr (ScrubEntry.finished_iff.trans (and_iff_right supervisor).symm)
    · rw [if_neg (by rw [isSupervisor_eq_false_iff.2 supervisor]; exact Bool.false_ne_true)]
      exact iff_of_true rfl fun _ _ done => supervisor done.1
  rw [pendingItems, Nat.add_eq_zero_iff, Nat.add_eq_zero_iff, Nat.add_eq_zero_iff, orphan, queue, leases, scrub, and_assoc,
    and_assoc]

/-- The line is asserted exactly when one of them does (R150). -/
theorem atn_iff :
    s.atn m = true ↔
      (s.master m).orphan ≠ none ∨ (∃ e ∈ s.queue, e.claim.master = m ∧ e.status = .ended) ∨
        (∃ k, ∃ l ∈ s.lease k, l.notices[m] ≠ none) ∨ ∃ e ∈ s.scrub.list, m = s.supmid ∧ e.state.live = false := by
  rw [atn, decide_eq_true_eq, ne_eq, pendingItems_eq_zero_iff, not_and_or, not_and_or, not_and_or]
  push Not
  rfl

/-- A count of leases where one slot alone differs. -/
theorem countLeases_of_one (others : ∀ j, k ≠ j → t.lease j = s.lease j) (f : Lease → Bool) :
    t.countLeases f + flag ((s.lease k).any f) = s.countLeases f + flag ((t.lease k).any f) := by
  have sums : ∀ (p : SlotIx → Bool) (ks : List SlotIx), ks.countP p = (ks.map fun k => flag (p k)).sum := fun p ks => by
    induction ks with
    | nil => rfl
    | cons k ks ih => rw [List.countP_cons, ih, List.map_cons, List.sum_cons, Nat.add_comm]; rfl
  rw [countLeases, countLeases, sums, sums]
  exact sum_map_of_agree (f := fun j => flag ((t.lease j).any f)) (g := fun j => flag ((s.lease j).any f)) nodup_allSlots
    (mem_allSlots k) fun j other => by rw [others j other]

/-! ### The first item (R147) -/

theorem firstItem_of_orphan {o : Orphan} (orphan : (s.master m).orphan = some o) : s.firstItem m = some (.orphan o) := by
  simp only [firstItem, orphan]

section
variable (noOrphan : (s.master m).orphan = none)
include noOrphan

theorem firstItem_of_claim {e : ClaimEntry} (found : s.queue.find? (ClaimEntry.endedOf m) = some e) :
    s.firstItem m = some (.claim e) := by
  simp only [firstItem, noOrphan, found]

variable (noEnded : ∀ e ∈ s.queue, ¬(e.claim.master = m ∧ e.status = .ended))
include noEnded

theorem firstItem_of_lease {i : Item} (found : s.leaseItem m = some i) : s.firstItem m = some i := by
  have none_ended : s.queue.find? (ClaimEntry.endedOf m) = none :=
    List.find?_eq_none.2 fun e mem => mt ClaimEntry.endedOf_iff.1 (noEnded e mem)
  simp only [firstItem, noOrphan, none_ended, found]

theorem firstItem_of_scrub (noLease : ∀ k l, s.lease k = some l → l.notices[m] = none) :
    s.firstItem m = if s.isSupervisor m then (s.scrub.list.find? ScrubEntry.finished).map .scrub else none := by
  have none_ended : s.queue.find? (ClaimEntry.endedOf m) = none :=
    List.find?_eq_none.2 fun e mem => mt ClaimEntry.endedOf_iff.1 (noEnded e mem)
  have none_told : s.leaseItem m = none := by
    rw [leaseItem, findLease_of_none (p := fun l => l.notices[m] ≠ none) (fun k l holds told => told (noLease k l holds))
      Option.isSome_iff_ne_none]
    rfl
  simp only [firstItem, noOrphan, none_ended, none_told]

end

/-- The lowest-numbered slot with an entry for `m`. -/
theorem leaseItem_of_lowest {x : NoticeKind} (holds : s.lease k = some l) (told : l.notices[m] = some x)
    (lowest : ∀ j l', j < k → s.lease j = some l' → l'.notices[m] = none) :
    s.leaseItem m = some (.lease k l x) := by
  rw [leaseItem, findLease_of_lowest (p := fun l => l.notices[m] ≠ none)
    (fun j l' lower holds' told => told (lowest j l' lower holds')) holds (by rw [told]; nofun) Option.isSome_iff_ne_none]
  simp only [Option.bind_some, holds, told, Option.map_some]

/-! ### The rule of NEXT NOTICE (R146 to R148) -/

theorem nextNoticeRule_of_fenced (fenced : (u.master m).state = .fenced) : nextNoticeRule u m = (u, .bare .fenced) :=
  if_pos (decide_eq_true fenced)

theorem nextNoticeRule_of_attached (attached : (u.master m).state = .attached) :
    nextNoticeRule u m =
      match u.firstItem m with
      | none => (u, .bare .noNotice)
      | some i => (u.collect m i, u.itemAnswer m i ((u.collect m i).pendingItems m)) := by
  simp only [nextNoticeRule, State.fenced, State.attached, attached]
  rfl

/-! ### Collecting takes one item away -/

theorem pendingItems_collect_orphan {o : Orphan} (orphan : (s.master m).orphan = some o) :
    (s.collect m (.orphan o)).pendingItems m + 1 = s.pendingItems m := by
  have after : (s.collect m (.orphan o)).pendingItems m =
      0 + s.queue.countP (ClaimEntry.endedOf m) + s.countLeases (fun l => l.notices[m].isSome) +
        (if s.isSupervisor m then s.scrub.list.countP ScrubEntry.finished else 0) := by
    rw [pendingItems, collect, master_setMaster, if_pos rfl]
    rfl
  rw [after, pendingItems, orphan, show flag (some o).isSome = 1 from rfl]
  omega

theorem collect_claim {older younger : List ClaimEntry} {e : ClaimEntry} (queue : s.queue = older ++ e :: younger)
    (ended : e.endedOf m = true) (first : ∀ x ∈ older, x.endedOf m ≠ true) :
    s.collect m (.claim e) = s.setQueue (older ++ younger) ∧
      (s.collect m (.claim e)).pendingItems m + 1 = s.pendingItems m := by
  have collected : s.collect m (.claim e) = s.setQueue (older ++ younger) := by
    rw [collect, queue, eraseP_first ended first]
  have after : (s.setQueue (older ++ younger)).pendingItems m =
      flag (s.master m).orphan.isSome + (older ++ younger).countP (ClaimEntry.endedOf m) +
        s.countLeases (fun l => l.notices[m].isSome) +
        (if s.isSupervisor m then s.scrub.list.countP ScrubEntry.finished else 0) := rfl
  have fewer := countP_split (younger := younger) (older := older) ended
  refine ⟨collected, ?_⟩
  rw [collected, after, pendingItems, queue]
  omega

theorem pendingItems_collect_lease {x : NoticeKind} (holds : s.lease k = some l) (told : l.notices[m] = some x) :
    (s.collect m (.lease k l x)).pendingItems m + 1 = s.pendingItems m := by
  have touches := touches_dropNotice s k m
  rw [holds, Option.map_some] at touches
  have one := countLeases_of_one (fun j other => touches.lease_ne other) fun l => l.notices[m].isSome
  rw [holds, touches.lease_same] at one
  have before : flag (Option.any (fun l => l.notices[m].isSome) (some l)) = 1 := by
    rw [Option.any_some, told]; rfl
  have behind : flag (Option.any (fun l => l.notices[m].isSome) (some { l with notices := l.notices.set m none })) = 0 := by
    rw [Option.any_some, notices_set_get, if_pos rfl]; rfl
  have after : (s.dropNotice k m).pendingItems m =
      flag (s.master m).orphan.isSome + s.queue.countP (ClaimEntry.endedOf m) +
        (s.dropNotice k m).countLeases (fun l => l.notices[m].isSome) +
        (if s.isSupervisor m then s.scrub.list.countP ScrubEntry.finished else 0) := by
    rw [pendingItems, touches.masters, isSupervisor, isSupervisor, touches.supmid,
      show (s.dropNotice k m).queue = s.queue from (congrArg State.queue touches.frame :),
      show (s.dropNotice k m).scrub = s.scrub from (congrArg State.scrub touches.frame :)]
  rw [collect, after, pendingItems]
  omega

theorem collect_scrub {older younger : List ScrubEntry} {e : ScrubEntry} (list : s.scrub.list = older ++ e :: younger)
    (supervisor : s.isSupervisor m = true) (done : e.finished = true) (first : ∀ x ∈ older, x.finished ≠ true) :
    s.collect m (.scrub e) = s.setScrub { s.scrub with list := older ++ younger } ∧
      (s.collect m (.scrub e)).pendingItems m + 1 = s.pendingItems m := by
  have collected : s.collect m (.scrub e) = s.setScrub { s.scrub with list := older ++ younger } := by
    rw [collect, list, eraseP_first done first]
  have after : (s.setScrub { s.scrub with list := older ++ younger }).pendingItems m =
      flag (s.master m).orphan.isSome + s.queue.countP (ClaimEntry.endedOf m) +
        s.countLeases (fun l => l.notices[m].isSome) +
        (if s.isSupervisor m then (older ++ younger).countP ScrubEntry.finished else 0) := rfl
  have fewer := countP_split (younger := younger) (older := older) done
  refine ⟨collected, ?_⟩
  rw [collected, after, pendingItems, list, if_pos supervisor, if_pos supervisor]
  omega

/-- The answer for a finished scrub entry, in the words of Table 8-3. -/
theorem itemAnswer_scrub (s : State) (m : Mid) (e : ScrubEntry) (left : Nat) :
    s.itemAnswer m (.scrub e) left =
      { Answer.bare .ok with
        val0 :=
          noticeHead e.handle.toNat (match e.state with | .failed _ => 11 | _ => 10) 4
            (match s.lookup e.handle with | some (_, l) => l.hold.state.code | none => 0) 0
        val1 := place left 16 6
        val3 := match e.state with | .failed a => word a | _ => 0 } := by
  simp only [itemAnswer, stateUnder, ScrubState.report]
  cases e.state <;> cases s.lookup e.handle <;> rfl

/-- An ATTACHED master's NEXT NOTICE collects the first item and answers for it, with the count of those left (R148). -/
theorem nextNotice_collects {i : Item} (served : s.Served) (attached : (s.master m).state = .attached)
    (first : s.firstItem m = some i)
    (win : ((s.takeRequest m 0x20).collect m i).win = (s.takeRequest m 0x20).win) :
    ∃ w b, exec (.nextNotice m) s = .next { (s.takeRequest m 0x20).collect m i with window := w, bus := b } ∧
      s.Answered { (s.takeRequest m 0x20).collect m i with window := w, bus := b } m 0x20
        (s.itemAnswer m i (((s.takeRequest m 0x20).collect m i).pendingItems m)) := by
  have rule := nextNoticeRule_of_attached (u := s.takeRequest m 0x20) attached
  rw [show (s.takeRequest m 0x20).firstItem m = some i from first] at rule
  exact answered_of_request (r := .nextNotice) served rule win

end State

end Sys2Proof.Machine

namespace Sys2Proof.Proofs

open Sys2Proof.Machine

/-- Settles O27. -/
theorem nextNoticeCollects : Obligations.NextNoticeCollects := by
  intro s m ended done
  refine ⟨State.atn_iff, ?_⟩
  intro served noOrphan noEnded noLease noDone collects
  have refuses : ∀ {a}, nextNoticeRule (s.takeRequest m Request.nextNotice.code) m =
      (s.takeRequest m Request.nextNotice.code, a) → s.AnsweredOnly (.nextNotice m) m 0x20 a :=
    State.answeredOnly_of_request (r := .nextNotice) served
  refine ⟨fun fenced => refuses (State.nextNoticeRule_of_fenced fenced),
    fun detached => refuses (State.nextNoticeRule_of_detached detached), fun attached => ?_⟩
  refine ⟨fun orphan queue lease scrub => refuses ?_, fun o orphan => ?_,
    fun older e younger orphan queue own first => ?_, fun k l x orphan queue holds told lowest => ?_,
    fun older e younger orphan queue lease list own first => ?_⟩
  · have none_left : (s.takeRequest m Request.nextNotice.code).firstItem m = none := by
      refine (State.firstItem_of_scrub orphan queue lease).trans ?_
      by_cases supervisor : m = s.supmid
      · rw [if_pos (show State.isSupervisor _ m = true from decide_eq_true supervisor)]
        refine congrArg (Option.map Item.scrub) (List.find?_eq_none.2 fun e mem finished => ?_)
        exact scrub e mem ⟨supervisor, ScrubEntry.finished_iff.1 finished⟩
      · exact if_neg (by rw [State.isSupervisor_eq_false_iff.2 supervisor]; exact Bool.false_ne_true)
    rw [State.nextNoticeRule_of_attached (u := s.takeRequest m Request.nextNotice.code) attached, none_left]
  · obtain ⟨w, b, run, answered⟩ := State.nextNotice_collects served attached (State.firstItem_of_orphan orphan) rfl
    exact ⟨_, run, ⟨rfl, State.masterBecomes_setMaster _ m _⟩, answered,
      State.pendingItems_collect_orphan (s := s.takeRequest m 0x20) orphan⟩
  · have ended : e.endedOf m = true := ClaimEntry.endedOf_iff.2 own
    have first : ∀ x ∈ older, x.endedOf m ≠ true := fun x mem => mt ClaimEntry.endedOf_iff.1 (first x mem)
    obtain ⟨collected, fewer⟩ := State.collect_claim (s := s.takeRequest m 0x20) queue ended first
    obtain ⟨w, b, run, answered⟩ := State.nextNotice_collects served attached
      (State.firstItem_of_claim orphan (by rw [queue]; exact find_first ended first)) (by rw [collected]; rfl)
    rw [collected] at run answered fewer
    exact ⟨_, run, rfl, answered, fewer⟩
  · have touches := State.touches_dropNotice (s.takeRequest m 0x20) k m
    rw [show (s.takeRequest m 0x20).lease k = some l from holds, Option.map_some] at touches
    obtain ⟨w, b, run, answered⟩ := State.nextNotice_collects served attached
      (State.firstItem_of_lease orphan queue (State.leaseItem_of_lowest holds told lowest))
      (congrArg State.win touches.slots_only :)
    refine ⟨_, run, ⟨?_, touches.leaseBecomes⟩, answered,
      State.pendingItems_collect_lease (s := s.takeRequest m 0x20) holds told⟩
    rw [State.collect, touches.slots_only]
    rfl
  · have finished : e.finished = true := ScrubEntry.finished_iff.2 own.2
    have first : ∀ x ∈ older, x.finished ≠ true := fun x mem finished =>
      first x mem ⟨own.1, ScrubEntry.finished_iff.1 finished⟩
    have supervisor : s.isSupervisor m = true := decide_eq_true own.1
    obtain ⟨collected, fewer⟩ :=
      State.collect_scrub (s := s.takeRequest m 0x20) list supervisor finished first
    have found : s.firstItem m = some (.scrub e) := by
      rw [State.firstItem_of_scrub orphan queue lease, if_pos supervisor, list, find_first finished first]
      rfl
    obtain ⟨w, b, run, answered⟩ := State.nextNotice_collects served attached found (by rw [collected]; rfl)
    rw [collected] at run answered fewer
    rw [State.itemAnswer_scrub] at answered
    exact ⟨_, run, rfl, answered, fewer⟩

end Sys2Proof.Proofs

end

section
/-! PROOF. CLAIM: the rows of Table 3-2, and the disposition of a claim that passes them (R42 to R52). -/

namespace Sys2Proof.Machine

theorem Hold.holdsRole_iff {h : Hold} {m : Mid} :
    h.holdsRole m = true ↔ ¬(h.role m = .outsider ∨ h.role m = .formerOwner) := by
  rw [Hold.holdsRole, Bool.and_eq_true, decide_eq_true_eq, decide_eq_true_eq, not_or]

/-- A refusal whose first check is `c` is none exactly when `c` does not hold and the later checks refuse nothing. -/
theorem ite_refusal_eq_none {c : Prop} [Decidable c] {a : Answer} {later : Option Answer} :
    (if c then some a else later) = none ↔ ¬c ∧ later = none := by
  by_cases h : c
  · rw [if_pos h]; exact ⟨nofun, fun none => absurd h none.1⟩
  · rw [if_neg h]; exact ⟨fun none => ⟨h, none⟩, And.right⟩

/-- The flag that says in an answer whether the claim has joined a lease. -/
def Place.joinedFlag : Place → Nat
  | .join _ => 1
  | .fresh _ => 0

namespace State

variable {s t u : State} {m n : Mid} {k j : SlotIx} {l : Lease} {a : ClaimArgs} {c : Claim} {wait : Nat}

/-! ### The checks (Table 3-2) -/

theorem entryOf_isSome_iff {tag : Tag} :
    (s.entryOf m tag).isSome = true ↔ ∃ e ∈ s.queue, e.claim.master = m ∧ e.claim.tag = tag := by
  simp only [entryOf, List.find?_isSome, Bool.and_eq_true, decide_eq_true_eq]

theorem overlapsOwn_isSome_iff :
    (s.overlapsOwn c).isSome = true ↔
      ∃ k l, s.lease k = some l ∧ l.range.overlaps c.range = true ∧ l.hold.holdsRole c.master = true := by
  rw [Option.isSome_iff_ne_none, ne_eq, overlapsOwn, findLease_eq_none]
  simp only [not_forall, Bool.not_eq_false, Bool.and_eq_true, exists_prop]

theorem waitingOverlap_isSome_iff {r : Range} :
    (s.waitingOverlap m r).isSome = true ↔
      ∃ e ∈ s.queue, e.isWaiting = true ∧ e.claim.master = m ∧ e.claim.range.overlaps r = true := by
  simp only [waitingOverlap, List.find?_isSome, Bool.and_eq_true, decide_eq_true_eq, and_assoc]

/-- Checks 3 to 8 one after the other, each a condition with its answer. -/
theorem claimRefusal_of_attached (attached : (s.master m).state = .attached) :
    claimRefusal s m a =
      let tag := a.tag.toNat
      let p := s.pool a.range.pool
      let x := s.master m
      if p.enabled = false then some (claimAnswer .badPool tag)
      else if a.range.count = 0 ∨ 4096 < a.range.count ∨ p.size < a.range.first + a.range.count then
        some (claimAnswer .badRange tag)
      else if a.term = 0 then some (claimAnswer .badTerm tag)
      else if (s.entryOf m a.tag).isSome = true then
        some (claimAnswer .dupTag tag (further := place (((s.entryOf m a.tag).map fun e => e.status.code).getD 0) 0 8))
      else if (s.overlapsOwn (s.clampedClaim m a)).isSome = true then
        some (claimAnswer .selfOverlap tag (further := place (slotCode (s.overlapsOwn (s.clampedClaim m a))) 0 8))
      else if (s.waitingOverlap m a.range).isSome = true then
        some (claimAnswer .selfOverlap tag
          (further :=
            place 32 0 8 ||| place (((s.waitingOverlap m a.range).map fun e => e.claim.tag.toNat).getD 0) 8 8))
      else if x.quota ≤ x.held + x.waiting then
        some (claimAnswer .quota tag (further := place x.held 0 8 ||| place x.waiting 8 8 ||| place x.quota 16 8))
      else none := by
  have notFenced : s.fenced m = false := decide_eq_false (by rw [attached]; nofun)
  have isAttached : s.attached m = true := decide_eq_true attached
  simp only [claimRefusal, notFenced, isAttached, Bool.not_true, Bool.false_eq_true, if_false, Bool.not_eq_true']
  cases s.entryOf m a.tag <;> cases s.overlapsOwn (s.clampedClaim m a) <;> cases s.waitingOverlap m a.range <;> rfl

theorem claimRefusal_rows (attached : (s.master m).state = .attached) :
    let tag := a.tag.toNat
    let p := s.pool a.range.pool
    let x := s.master m
    FirstOf
      [ (p.enabled = false, claimAnswer .badPool tag),
        (a.range.count = 0 ∨ 4096 < a.range.count ∨ p.size < a.range.first + a.range.count,
          claimAnswer .badRange tag),
        (a.term = 0, claimAnswer .badTerm tag),
        ((s.entryOf m a.tag).isSome = true,
          claimAnswer .dupTag tag (further := place (((s.entryOf m a.tag).map fun e => e.status.code).getD 0) 0 8)),
        ((s.overlapsOwn (s.clampedClaim m a)).isSome = true,
          claimAnswer .selfOverlap tag (further := place (slotCode (s.overlapsOwn (s.clampedClaim m a))) 0 8)),
        ((s.waitingOverlap m a.range).isSome = true,
          claimAnswer .selfOverlap tag
            (further :=
              place 32 0 8 ||| place (((s.waitingOverlap m a.range).map fun e => e.claim.tag.toNat).getD 0) 8 8)),
        (x.quota ≤ x.held + x.waiting,
          claimAnswer .quota tag
            (further := place x.held 0 8 ||| place x.waiting 8 8 ||| place x.quota 16 8)) ]
      (claimRefusal s m a = some ·) (claimRefusal s m a = none) := by
  rw [claimRefusal_of_attached attached]
  exact firstOf_ite Iff.rfl <| firstOf_ite Iff.rfl <| firstOf_ite Iff.rfl <| firstOf_ite Iff.rfl <|
    firstOf_ite Iff.rfl <| firstOf_ite Iff.rfl <| firstOf_ite Iff.rfl rfl

/-- The checks refuse nothing exactly when the claim passes them. -/
theorem claimRefusal_eq_none_iff (attached : (s.master m).state = .attached) :
    claimRefusal s m (s.win m).claimArgs = none ↔ s.ClaimPasses m := by
  have isAttached : s.attached m = true := decide_eq_true attached
  have range : ¬((s.win m).claimArgs.range.count = 0 ∨ 4096 < (s.win m).claimArgs.range.count ∨
      (s.pool (s.win m).claimArgs.range.pool).size <
        (s.win m).claimArgs.range.first + (s.win m).claimArgs.range.count) ↔
      1 ≤ (s.win m).claimArgs.range.count ∧ (s.win m).claimArgs.range.count ≤ 4096 ∧
        (s.win m).claimArgs.range.first + (s.win m).claimArgs.range.count ≤
          (s.pool (s.win m).claimArgs.range.pool).size := by omega
  rw [claimRefusal_of_attached attached]
  simp only [ite_refusal_eq_none, entryOf_isSome_iff, overlapsOwn_isSome_iff, waitingOverlap_isSome_iff,
    Hold.holdsRole_iff, range, Bool.not_eq_false, not_exists, not_and, not_not, Nat.not_le, and_true, and_assoc]
  simp only [ClaimPasses, isAttached, true_and, Option.mem_def, Bool.not_eq_true, clampedClaim, ne_eq]

theorem attached_of_claimPasses (passes : s.ClaimPasses m) : (s.master m).state = .attached := of_decide_eq_true passes.1

/-- CLAIM past its checks (R42). -/
theorem claimRule_of_passes (passes : s.ClaimPasses m) (code : BitVec 8) :
    claimRule (s.takeRequest m code) m =
      claimDispose (s.takeRequest m code) (s.clampedClaim m (s.win m).claimArgs) (s.win m).claimArgs.wait := by
  have accepted := (claimRefusal_eq_none_iff (attached_of_claimPasses passes)).2 passes
  rw [claimRule, claimArgs_takeRequest,
    show claimRefusal (s.takeRequest m code) m (s.win m).claimArgs = none from accepted]
  rfl

/-! ### The disposition (R47 to R52) -/

/-- A claim that nothing blocks is grantable where it has a place (R47). -/
theorem grantable_of_unblocked {older : List ClaimEntry} {p : Place}
    (leases : ∀ j l, s.lease j = some l → l.range.overlaps c.range = true → c.mode = .shared ∧ l.hold.mode = .shared)
    (entries : ∀ e ∈ older, e.isWaiting = true → e.claim.range.overlaps c.range = true →
      c.mode = .shared ∧ e.claim.mode = .shared)
    (place : s.placeFor c = some p) : s.grantable older c = some p := by
  have unblocked : ¬s.BlockedByLease c.mode c.range := fun ⟨j, l, holds, overlaps, exclusive⟩ => by
    obtain ⟨claim, lease⟩ := leases j l holds overlaps
    rw [claim, lease] at exclusive
    exact exclusive.elim nofun nofun
  have nobody : blockingCount older c = 0 := blockingCount_eq_zero_iff.2 fun e mem => Bool.eq_false_iff.2 fun blocks => by
    simp only [EntryBlocks, Bool.and_eq_true, Bool.or_eq_true, decide_eq_true_eq] at blocks
    obtain ⟨⟨waiting, overlaps⟩, exclusive⟩ := blocks
    obtain ⟨claim, entry⟩ := entries e mem waiting overlaps
    rw [claim, entry] at exclusive
    exact exclusive.elim nofun nofun
  rw [grantable, blockingSlot_eq_none_iff.2 unblocked, nobody, if_neg, place]
  exact fun blocked => blocked.elim nofun fun some => some rfl

theorem claimDispose_of_grantable {p : Place} (place : s.grantable s.queue c = some p) :
    claimDispose s c wait =
      (s.grantAt c p,
        claimAnswer .ok c.tag.toNat (handle := ((s.grantAt c p).handle p.slot).toNat)
          (joined := p.joinedFlag) (term := c.term)) := by
  cases p <;> simp only [claimDispose, place, Place.joinedFlag]

/-- The reported blocking slot is the lowest-numbered one (R52). -/
theorem slotCode_blockingSlot {slot : Nat} (blocking : s.BlockingSlot c.mode c.range slot) :
    slotCode (s.blockingSlot c) = slot := by
  cases found : s.blockingSlot c with
  | none => exact (blocking.2 (blockingSlot_eq_none_iff.1 found)).symm
  | some k =>
    obtain ⟨⟨l, holds, conflicts⟩, lowest⟩ := (findLease_eq_some s).1 found
    refine (blocking.1 k l holds (Lease.conflicts_iff.1 conflicts) fun j l' lower holds' blocks => ?_).symm
    have conflicts := lowest j lower l' holds'
    rw [Lease.conflicts_iff.2 blocks] at conflicts
    cases conflicts

/-- A claim that cannot be granted waits or is refused (R50 to R52). -/
theorem claimDispose_of_blocked (blocked : s.grantable s.queue c = none) :
    claimDispose s c wait =
      if 0 < wait then
        if 4 ≤ s.entriesOf c.master then
          (s, claimAnswer .limit c.tag.toNat
            (further := place (s.entriesOf c.master) 0 8 ||| place s.queue.length 8 8))
        else if 16 ≤ s.queue.length then
          (s, claimAnswer .queueFull c.tag.toNat
            (further := place (s.entriesOf c.master) 0 8 ||| place s.queue.length 8 8))
        else
          ((s.setQueue (s.queue ++ [{ claim := c, status := .waiting wait }])).raiseWaiting c.master,
            claimAnswer .queued c.tag.toNat (term := c.term) (position := s.queue.length)
              (slot := slotCode (s.blockingSlot c)) (count := s.queue.countP (EntryBlocks c.mode c.range)))
      else if (s.blockingSlot c).isSome = true ∨ s.queue.countP (EntryBlocks c.mode c.range) ≠ 0 then
        (s, claimAnswer .conflict c.tag.toNat (slot := slotCode (s.blockingSlot c))
          (count := s.queue.countP (EntryBlocks c.mode c.range)))
      else
        (s, claimAnswer .noSlot c.tag.toNat (slot := slotCode (s.blockingSlot c))
          (count := s.queue.countP (EntryBlocks c.mode c.range))) := by
  simp only [claimDispose, blocked, blockingCount_eq]

section
variable (passes : s.ClaimPasses m) (code : BitVec 8)
include passes

/-- A claim that joins a lease (R48). -/
theorem claimRule_of_join {es : List Sharer} (holds : s.lease k = some l) (hold : l.hold = .shared es)
    (place : s.grantable s.queue (s.clampedClaim m (s.win m).claimArgs) = some (.join k)) :
    claimRule (s.takeRequest m code) m =
      (((s.takeRequest m code).setLease k
          { l with hold := .shared (es ++ [(s.clampedClaim m (s.win m).claimArgs).sharer]) }).raiseHeld m,
        claimAnswer .ok (s.win m).claimArgs.tag.toNat (handle := (s.handle k).toNat) (joined := 1)
          (term := s.clampTerm (s.win m).claimArgs.range.pool (s.win m).claimArgs.term)) := by
  have granted : (s.takeRequest m code).grantAt (s.clampedClaim m (s.win m).claimArgs) (.join k) =
      ((s.takeRequest m code).setLease k
        { l with hold := .shared (es ++ [(s.clampedClaim m (s.win m).claimArgs).sharer]) }).raiseHeld m := by
    rw [grantAt_join (s.takeRequest m code) (l := l) holds, Lease.withSharer, hold]
    rfl
  have handle : (((s.takeRequest m code).setLease k
      { l with hold := .shared (es ++ [(s.clampedClaim m (s.win m).claimArgs).sharer]) }).raiseHeld m).handle k =
      s.handle k := (touches_setLease (s.takeRequest m code) k _).handle k
  refine (claimRule_of_passes passes code).trans ((claimDispose_of_grantable (s := s.takeRequest m code) place).trans ?_)
  rw [granted, Place.slot, handle]
  rfl

/-- A claim that takes a FREE slot (R49). -/
theorem claimRule_of_fresh
    (place : s.grantable s.queue (s.clampedClaim m (s.win m).claimArgs) = some (.fresh k)) :
    claimRule (s.takeRequest m code) m =
      (((s.takeRequest m code).setSlot k
          { gen := (s.slot k).gen + 1, lease := some (s.clampedClaim m (s.win m).claimArgs).newLease }).raiseHeld m,
        claimAnswer .ok (s.win m).claimArgs.tag.toNat (handle := (handleOf ((s.slot k).gen + 1) k).toNat)
          (term := s.clampTerm (s.win m).claimArgs.range.pool (s.win m).claimArgs.term)) := by
  have granted : (s.takeRequest m code).grantAt (s.clampedClaim m (s.win m).claimArgs) (.fresh k) =
      ((s.takeRequest m code).setSlot k
        { gen := (s.slot k).gen + 1, lease := some (s.clampedClaim m (s.win m).claimArgs).newLease }).raiseHeld m := rfl
  have gen : ((((s.takeRequest m code).setSlot k
      { gen := (s.slot k).gen + 1, lease := some (s.clampedClaim m (s.win m).claimArgs).newLease }).raiseHeld m).slot k).gen =
        (s.slot k).gen + 1 := by
    rw [raiseHeld, slot_setMaster, slot_setSlot, if_pos rfl]
  refine (claimRule_of_passes passes code).trans ((claimDispose_of_grantable (s := s.takeRequest m code) place).trans ?_)
  rw [granted, Place.slot, handle, gen]
  rfl

/-- A claim that cannot be granted waits or is refused (R50 to R52). -/
theorem claimRule_of_blocked {slot : Nat}
    (blocking : s.BlockingSlot (s.win m).claimArgs.mode (s.win m).claimArgs.range slot)
    (nowhere : s.grantable s.queue (s.clampedClaim m (s.win m).claimArgs) = none) :
    let y := s.takeRequest m code
    let a := (s.win m).claimArgs
    let c := s.clampedClaim m a
    let tag := a.tag.toNat
    let count := s.queue.countP (EntryBlocks a.mode a.range)
    let full := place (s.entriesOf m) 0 8 ||| place s.queue.length 8 8
    claimRule y m =
      if 0 < a.wait then
        if 4 ≤ s.entriesOf m then (y, claimAnswer .limit tag (further := full))
        else if 16 ≤ s.queue.length then (y, claimAnswer .queueFull tag (further := full))
        else
          ((y.setQueue (s.queue ++ [{ claim := c, status := .waiting a.wait }])).raiseWaiting m,
            claimAnswer .queued tag (term := c.term) (position := s.queue.length) (slot := slot) (count := count))
      else if (s.blockingSlot c).isSome = true ∨ count ≠ 0 then
        (y, claimAnswer .conflict tag (slot := slot) (count := count))
      else (y, claimAnswer .noSlot tag (slot := slot) (count := count)) := by
  have reported := slotCode_blockingSlot (c := s.clampedClaim m (s.win m).claimArgs) blocking
  refine (claimRule_of_passes passes code).trans ?_
  have disposed := claimDispose_of_blocked (wait := (s.win m).claimArgs.wait) (s := s.takeRequest m code) nowhere
  rw [show (s.takeRequest m code).blockingSlot (s.clampedClaim m (s.win m).claimArgs) =
    s.blockingSlot (s.clampedClaim m (s.win m).claimArgs) from rfl, reported] at disposed
  exact disposed

end

end State

end Sys2Proof.Machine

namespace Sys2Proof.Proofs

open Sys2Proof.Machine

/-- Settles O14. -/
theorem claimCheckOrder : Obligations.ClaimCheckOrder := by
  intro s m served attached a tag p x
  refine (State.claimRefusal_rows (a := a) attached).mono (fun b refused => ?_)
    (State.claimRefusal_eq_none_iff attached).1
  refine State.answeredOnly_of_request (r := .claim) served (State.claimRule_refused ?_)
  rw [State.claimArgs_takeRequest]
  exact refused

/-- Settles O15. -/
theorem claimGrants : Obligations.ClaimGrants := by
  intro s m k served passes a n term entry joined leases entries
  have grants : ∀ {p}, s.placeFor (s.clampedClaim m a) = some p → s.grantable s.queue (s.clampedClaim m a) = some p :=
    fun place => State.grantable_of_unblocked leases entries place
  refine ⟨fun l es shared holds hold range lowest => ?_, fun free first alone => ?_⟩
  · have place := grants (State.placeFor_of_join
      (State.joinSlot_eq_some.2 ⟨shared, ⟨l, holds, by rw [hold]; rfl, range⟩, lowest⟩))
    have touches := State.touches_setLease (s.takeRequest m Request.claim.code) k { l with hold := .shared (es ++ [entry]) }
    obtain ⟨w, b, run, answered⟩ := State.answered_of_request (r := .claim) served
      (State.claimRule_of_join passes _ holds hold place) rfl
    exact ⟨_, run, rfl, touches.leaseBecomes, State.masterBecomes_setMaster _ m _, answered⟩
  · have place := grants (State.placeFor_of_fresh (State.joinSlot_eq_none.2 alone) (State.findFree_eq_some.2 ⟨free, first⟩))
    obtain ⟨w, b, run, answered⟩ := State.answered_of_request (r := .claim) served
      (State.claimRule_of_fresh passes _ place) rfl
    have slot : ∀ j, (((s.takeRequest m Request.claim.code).setSlot k
        { gen := (s.slot k).gen + 1, lease := some (s.clampedClaim m a).newLease }).raiseHeld m).slot j =
        if k = j then { gen := (s.slot k).gen + 1, lease := some (s.clampedClaim m a).newLease } else s.slot j := fun j => by
      rw [State.raiseHeld, State.slot_setMaster, State.slot_setSlot]
      rfl
    have new : (s.clampedClaim m a).newLease =
        { range := a.range
          hold := if a.mode = .exclusive then .held m a.tag term [] else .shared [entry]
          notices := NoticeSet.empty } := by
      rw [Claim.newLease, show (s.clampedClaim m a).mode = a.mode from rfl]
      cases a.mode <;> rfl
    rw [new] at slot run answered
    exact ⟨_, run, rfl, (slot k).trans (if_pos rfl), fun j other => (slot j).trans (if_neg other.symm),
      State.masterBecomes_setMaster _ m _, answered⟩

/-- Settles O16. -/
theorem claimWaitsOrIsRefused : Obligations.ClaimWaitsOrIsRefused := by
  intro s m slot served passes a tag mine count full blocking blocked
  have nowhere : s.grantable s.queue (s.clampedClaim m a) = none := State.grantable_eq_none_iff.2 <|
    blocked.imp_right (Or.imp_left fun some_blocks => List.countP_pos_iff.1 (Nat.pos_of_ne_zero some_blocks))
  have rule := State.claimRule_of_blocked passes Request.claim.code blocking nowhere
  dsimp only at rule
  refine ⟨fun waits => ?_, fun noWait => ?_⟩
  · rw [if_pos waits] at rule
    refine ⟨fun limit => ?_, fun few => ⟨fun long => ?_, fun short => ?_⟩⟩
    · rw [if_pos (show 4 ≤ s.entriesOf m from limit)] at rule
      exact State.answeredOnly_of_request (r := .claim) served rule
    · rw [if_neg (show ¬4 ≤ s.entriesOf m from few), if_pos long] at rule
      exact State.answeredOnly_of_request (r := .claim) served rule
    · rw [if_neg (show ¬4 ≤ s.entriesOf m from few), if_neg short] at rule
      obtain ⟨w, b, run, answered⟩ := State.answered_of_request (r := .claim) served rule rfl
      exact ⟨_, run, rfl, rfl, State.masterBecomes_setMaster _ m _, answered⟩
  · rw [if_neg (show ¬0 < a.wait by rw [noWait]; exact Nat.lt_irrefl 0)] at rule
    refine ⟨fun conflict => ?_, fun free => ?_⟩
    · rw [if_pos (conflict.imp_left State.blockingSlot_isSome_iff.2)] at rule
      exact State.answeredOnly_of_request (r := .claim) served rule
    · obtain ⟨unblocked, nobody⟩ := not_or.1 free
      rw [if_neg (mt (Or.imp_left State.blockingSlot_isSome_iff.1) free), blocking.2 unblocked,
        show s.queue.countP (State.EntryBlocks (s.win m).claimArgs.mode (s.win m).claimArgs.range) = 0 from
          not_not.1 nobody] at rule
      exact State.answeredOnly_of_request (r := .claim) served rule

end Sys2Proof.Proofs

end

section
/-! PROOF. SCRUB and CLEAR: what they make of the scrub engine (R153, R154, R160). -/

namespace Sys2Proof.Machine

namespace ScrubEngine

variable {e : ScrubEngine} {older younger : List ScrubEntry} {x : ScrubEntry}

/-- With an ACTIVE entry activation does nothing (R154). -/
theorem activated_of_active (active : e.HasActive) : e.activated = e := by
  obtain ⟨x, mem, active⟩ := active
  exact if_pos (.inl (List.find?_isSome.2 ⟨x, mem, active⟩))

/-- Where an ACTIVE entry serves the QUEUED ones activation does nothing. -/
theorem activated_of_served (served : e.Served) : e.activated = e := by
  by_cases queued : ∃ x ∈ e.list, x.isQueued = true
  · exact activated_of_active (served queued)
  · exact if_pos (.inr (by rw [List.any_eq_true]; exact queued))

/-- Without one it does what R154 says. -/
theorem activatesTo_activated (idle : ∀ x ∈ e.list, x.active = false) : e.ActivatesTo e.activated := by
  have none_active : (State.reset.setScrub e).activeEntry = none :=
    List.find?_eq_none.2 fun x mem => by rw [idle x mem]; exact Bool.false_ne_true
  have leads := (State.activate_of_none none_active).2
  rw [State.activate_eq] at leads
  exact leads

/-- The live entries are the ACTIVE one and the QUEUED ones, which it serves. -/
theorem hasActive_of_live (served : e.Served) (mem : x ∈ e.list) (live : x.state.live = true) : e.HasActive := by
  cases active : x.active with
  | true => exact ⟨x, mem, active⟩
  | false => exact served ⟨x, mem, ScrubEntry.queued_of_live live active⟩

end ScrubEngine

/-- A finished entry is not ACTIVE. -/
theorem ScrubEntry.active_of_finished {x : ScrubEntry} (done : x.state.live = false) : x.active = false :=
  Bool.eq_false_iff.2 fun active => by rw [ScrubEntry.live_of_active active] at done; cases done

namespace State

variable {s t u : State} {m n : Mid} {k : SlotIx} {l : Lease} {h : Handle} {older younger : List ScrubEntry}
  {x : ScrubEntry}

/-! ### SCRUB (R153) -/

/-- The engine with a new QUEUED entry at the young end. -/
def queued (e : ScrubEngine) (h : Handle) (p : Nat) : ScrubEngine :=
  { e with list := e.list ++ [{ handle := h, state := .queued p }] }

/-- With no live entry before it, it is ACTIVE at once (R154). -/
theorem activated_queued_of_idle {e : ScrubEngine} {p : Nat} (idle : ∀ x ∈ e.list, x.state.live = false) :
    (queued e h p).activated = { e with list := e.list ++ [{ handle := h, state := .active p }], breq := !e.bgnt } := by
  have none_active : ∀ x ∈ (queued e h p).list, x.active = false := fun x mem => by
    rcases List.mem_append.1 mem with old | new
    · exact ScrubEntry.active_of_finished (idle x old)
    · rw [List.mem_singleton.1 new]; rfl
  exact (ScrubEngine.activatesTo_activated none_active).1 e.list _ [] p rfl rfl fun x mem => by
    rw [ScrubEntry.isQueued, idle x mem]; rfl

/-- With an ACTIVE entry before it, it waits. -/
theorem activated_queued_of_active {e : ScrubEngine} {p : Nat} (active : e.HasActive) :
    (queued e h p).activated = queued e h p := by
  obtain ⟨x, mem, active⟩ := active
  exact ScrubEngine.activated_of_active ⟨x, List.mem_append_left _ mem, active⟩

/-- The ACTIVE entry is that of `h`. -/
def ownActive (e : ScrubEngine) (h : Handle) : Bool := (e.list.find? ScrubEntry.active).any fun e => e.handle = h

theorem ownActive_of_idle {e : ScrubEngine} {p : Nat} (idle : ∀ x ∈ e.list, x.state.live = false) :
    ownActive (queued e h p).activated h = true := by
  rw [activated_queued_of_idle idle, ownActive,
    find_active (younger := []) rfl fun y mem => ScrubEntry.active_of_finished (idle y mem)]
  exact decide_eq_true rfl

theorem ownActive_of_active {e : ScrubEngine} {p : Nat} (active : e.HasActive)
    (apart : ∀ x ∈ e.list, x.state.live = true → x.handle ≠ h) : ownActive (queued e h p).activated h = false := by
  rw [activated_queued_of_active active, ownActive, queued, List.find?_append]
  obtain ⟨y, mem, active⟩ := active
  obtain ⟨x, found⟩ := Option.isSome_iff_exists.1 (List.find?_isSome.2 ⟨y, mem, active⟩)
  rw [found, Option.some_or, Option.any_some]
  exact decide_eq_false (apart x (List.mem_of_find?_eq_some found) (ScrubEntry.live_of_active (List.find?_some found)))

/-- A TAINTED lease has no live entry (R152). -/
theorem ScrubCore.unlisted (core : s.ScrubCore) (holds : s.lease k = some l) (notScrub : l.hold.state ≠ .scrub)
    (mem : x ∈ s.scrub.list) (live : x.state.live = true) : x.handle ≠ s.handle k := fun same => by
  obtain ⟨j, ⟨l', holds', scrub⟩, handle⟩ := core.listed.named _ (mem_liveHandles.2 ⟨x, mem, live, same⟩)
  have found := (lookup_eq_some s).2 ⟨rfl, holds⟩
  rw [(lookup_eq_some s).2 ⟨handle, holds'⟩] at found
  obtain ⟨-, rfl⟩ := Prod.mk.inj (Option.some.inj found)
  exact notScrub scrub

theorem scrubRefusal_eq (s : State) (l : Lease) :
    scrubRefusal s l = recoveryRefusal l.hold (8 ≤ s.scrub.list.length) (.bare .listFull) := by
  unfold scrubRefusal recoveryRefusal
  cases l.hold <;> rfl

section
variable (standing : u.supervisorStanding m = none) (found : u.lookup (u.win m).argHandle = some (k, l))
include standing found

theorem scrubRule_found {o : Mid} {tag : Tag} (hold : l.hold = .tainted o tag) :
    scrubRule u m = u.unlessRefused (scrubRefusal u l)
      ((u.setLease k { l with hold := .scrub o tag }).setScrub
          (queued u.scrub (u.win m).argHandle ((u.pool l.range.pool).spanStart l.range)).activated,
        .items .ok (u.win m).argHandle.toNat u.scrub.list.length
          (flag (ownActive (queued u.scrub (u.win m).argHandle ((u.pool l.range.pool).spanStart l.range)).activated
            (u.win m).argHandle)) ((u.pool l.range.pool).spanWords l.range)) := by
  unfold scrubRule
  rw [standing]
  refine (onLease_found _ found).trans ?_
  rw [hold]
  dsimp only
  rw [activate_eq]
  rfl

theorem scrubRule_refused {a : Answer} (refused : scrubRefusal u l = some a) : scrubRule u m = (u, a) := by
  unfold scrubRule
  rw [standing]
  refine (onLease_found _ found).trans ?_
  rw [refused, unlessRefused_some]

end

/-! ### CLEAR (R160) -/

section
variable (standing : u.supervisorStanding m = none) (found : u.lookup (u.win m).argHandle = some (k, l))
include standing found

theorem clearRule_of_open (opened : l.hold.closed = false) : clearRule u m = (u, .bare .wrongState) := by
  unfold clearRule
  rw [standing]
  refine (onLease_found _ found).trans (if_pos ?_)
  rw [opened]; rfl

/-- A TAINTED lease cleared: activation is left nothing to do. -/
theorem clearRule_of_tainted (tainted : l.hold.state = .tainted) :
    clearRule u m =
      ((u.freeSlot k).grantPass.setScrub u.scrub.activated,
        .items .ok (u.win m).argHandle.toNat l.hold.state.code 0) := by
  have closed : l.hold.closed = true := Hold.closed_iff.1 (.inl tainted)
  have scrub : (u.freeSlot k).grantPass.scrub = u.scrub := by rw [grantPass_frame, freeSlot_frame]
  unfold clearRule
  rw [standing]
  refine (onLease_found _ found).trans ?_
  rw [closed]
  refine (if_neg Bool.false_ne_true).trans ?_
  simp only [tainted, reduceCtorEq, if_false]
  rw [activate_eq, scrub]

/-- A lease in SCRUB cleared: its live entry goes, and activation comes last. -/
theorem clearRule_of_scrub (scrub : l.hold.state = .scrub) :
    clearRule u m =
      ((u.freeSlot k).grantPass.setScrub (u.abandoned (u.win m).argHandle).activated,
        .items .ok (u.win m).argHandle.toNat l.hold.state.code (u.abandonedProgress (u.win m).argHandle)) := by
  have closed : l.hold.closed = true := Hold.closed_iff.1 (.inr scrub)
  unfold clearRule
  rw [standing]
  refine (onLease_found _ found).trans ?_
  rw [closed]
  refine (if_neg Bool.false_ne_true).trans ?_
  simp only [scrub, if_true]
  rw [abandon_eq, freeSlot_setScrub, grantPass_setScrub, activate_eq, setScrub_setScrub]
  rfl

end

/-- The freed slot of a closed lease counts for no master (R128). -/
theorem touches_freeSlot_closed (holds : s.lease k = some l) (closed : l.hold.closed = true) :
    s.Touches k none noLoss (fun n => l.notices[n]) (s.freeSlot k) := by
  refine (touches_freeSlot holds).cast rfl (fun n => ?_) fun _ => rfl
  cases hold : l.hold with
  | tainted | scrub => rfl
  | held | grace | shared => rw [hold] at closed; cases closed

section
variable (once : s.scrub.list.countP (ScrubEntry.liveFor h) = 1) (list : s.scrub.list = older ++ x :: younger)
  (named : x.handle = h) (live : x.state.live = true)
include once list named live

/-- The one live entry of a handle. -/
theorem others_not_liveFor : ∀ y ∈ older ++ younger, y.liveFor h = false := by
  have own : x.liveFor h = true := by rw [ScrubEntry.liveFor, live, named]; exact decide_eq_true rfl
  rw [list, ← countP_split own] at once
  intro y mem
  have none_left : (older ++ younger).countP (ScrubEntry.liveFor h) = 0 := Nat.succ.inj once
  exact Bool.eq_false_iff.2 (List.countP_eq_zero.1 none_left y mem)

/-- Abandoning it takes it off the list, with BREQ where it is ACTIVE. -/
theorem abandoned_eq :
    s.abandoned h =
        { s.scrub with list := older ++ younger, breq := if x.active = true then false else s.scrub.breq } ∧
      s.abandonedProgress h = if x.active = true then x.state.progress else 0 := by
  have others := others_not_liveFor once list named live
  have own : x.liveFor h = true := by rw [ScrubEntry.liveFor, live, named]; exact decide_eq_true rfl
  have kept : ∀ ys : List ScrubEntry, (∀ y ∈ ys, y ∈ older ++ younger) → (ys.filter fun y => !y.liveFor h) = ys :=
    fun ys sub => List.filter_eq_self.2 fun y mem => by rw [others y (sub y mem)]; rfl
  have rest : (s.scrub.list.filter fun y => !y.liveFor h) = older ++ younger := by
    rw [list, List.filter_append, List.filter_cons_of_neg (by rw [own]; exact Bool.false_ne_true),
      kept older fun _ => List.mem_append_left _, kept younger fun _ => List.mem_append_right _]
  have found : (s.scrub.list.find? fun y => y.liveFor h && y.active) = if x.active = true then some x else none := by
    by_cases active : x.active = true
    · rw [if_pos active, list, find_first (by rw [own, active]; rfl) fun y mem => by
        rw [others y (List.mem_append_left _ mem)]; exact Bool.false_ne_true]
    · rw [if_neg active, List.find?_eq_none]
      intro y mem both
      rw [Bool.and_eq_true] at both
      rw [list] at mem
      rcases List.mem_append.1 mem with old | young
      · rw [others y (List.mem_append_left _ old)] at both; exact Bool.false_ne_true both.1
      · rcases List.mem_cons.1 young with rfl | young
        · exact active both.2
        · rw [others y (List.mem_append_right _ young)] at both; exact Bool.false_ne_true both.1
  have some_active : (s.scrub.list.any fun y => y.liveFor h && y.active) = x.active := by
    rw [Bool.eq_iff_iff, List.any_eq_true, ← List.find?_isSome, found]
    cases x.active <;> simp
  constructor
  · rw [abandoned, abandon, setScrub_scrub, rest, some_active]
  · rw [abandonedProgress, found]
    cases x.active <;> rfl

end

end State

end Sys2Proof.Machine

namespace Sys2Proof.Proofs

open Sys2Proof.Machine

/-- Settles O38. -/
theorem scrubEntersList : Obligations.ScrubEntersList := by
  intro s k l served law attached names m h p n joined first words
  have standing : (s.takeRequest m Request.scrub.code).supervisorStanding m = none :=
    (State.supervisorStanding_takeRequest ..).trans (State.supervisorStanding_of_attached attached)
  have found := State.lookup_taken names Request.scrub.code
  have core := (State.scrubLaw_iff.1 law).1
  refine (State.recoveryRefusal_rows l.hold (.bare .listFull)).mono (fun a refused => ?_) fun accepted o tag hold => ?_
  · exact State.answeredOnly_of_request (r := .scrub) served
      (State.scrubRule_refused standing found ((State.scrubRefusal_eq ..).trans refused))
  · have rule := State.scrubRule_found standing found hold
    rw [State.scrubRefusal_eq, State.scrub_takeRequest, accepted, State.unlessRefused_none, State.argHandle_takeRequest,
      State.pool_takeRequest] at rule
    have touches := State.touches_setLease (s.takeRequest m Request.scrub.code) k { l with hold := .scrub o tag }
    obtain ⟨w, c, run, answered⟩ := State.answered_of_request (r := .scrub) served rule rfl
    refine ⟨_, run, rfl, touches.leaseBecomes, fun idle => ?_, fun x mem live => ?_⟩
    · have active := State.ownActive_of_idle (h := (s.win m).argHandle)
        (p := (s.pool l.range.pool).spanStart l.range) idle
      rw [active] at answered
      exact ⟨State.activated_queued_of_idle idle, answered⟩
    · have active := ScrubEngine.hasActive_of_live core.served mem live
      have other := State.ownActive_of_active (h := (s.win m).argHandle)
          (p := (s.pool l.range.pool).spanStart l.range) active fun x mem live => by
        rw [show (s.win m).argHandle = s.handle k from names.1]
        exact core.unlisted names.2 (by rw [hold]; nofun) mem live
      rw [other] at answered
      exact ⟨State.activated_queued_of_active active, answered⟩

/-- Settles O39. -/
theorem clearFrees : Obligations.ClearFrees := by
  intro s k l served law attached names m h clears
  have standing : (s.takeRequest m Request.clear.code).supervisorStanding m = none :=
    (State.supervisorStanding_takeRequest ..).trans (State.supervisorStanding_of_attached attached)
  have found := State.lookup_taken names Request.clear.code
  have core := (State.scrubLaw_iff.1 law).1
  have clearing : ∀ (E : ScrubEngine) (progress : Nat) (after : ScrubEngine → Prop), l.hold.closed = true →
      clearRule (s.takeRequest m Request.clear.code) m =
        (((s.takeRequest m Request.clear.code).freeSlot k).grantPass.setScrub E,
          .items .ok h.toNat l.hold.state.code progress) → after E → clears progress after :=
    fun E progress after closed rule ends => by
    have touches := State.touches_freeSlot_closed (s := s.takeRequest m Request.clear.code) names.2 closed
    have window := (congrArg State.window touches.frame :)
    obtain ⟨w, b, run, answered⟩ := State.answered_of_request (r := .clear) served rule
      ((State.win_grantPass _).trans (congrArg State.win touches.frame :))
    refine ⟨_, _, run, rfl, ?_, touches.leaseBecomes, fun n => touches.master n, answered, ends⟩
    rw [window]
    exact touches.frame
  refine ⟨fun opened => ?_, fun tainted => ?_, fun scrub older x younger p list named => ?_⟩
  · refine State.answeredOnly_of_request (r := .clear) served (State.clearRule_of_open standing found ?_)
    exact Bool.eq_false_iff.2 fun closed => by
      rcases Hold.closed_iff.2 closed with state | state <;> rw [state] at opened <;> exact opened.elim nofun nofun
  · have rule := State.clearRule_of_tainted standing found tainted
    rw [State.argHandle_takeRequest, State.scrub_takeRequest] at rule
    exact clearing _ 0 (fun e => e = s.scrub) (Hold.closed_iff.1 (.inl tainted)) rule (ScrubEngine.activated_of_served core.served)
  · have rule := State.clearRule_of_scrub standing found scrub
    rw [State.argHandle_takeRequest] at rule
    have closed : l.hold.closed = true := Hold.closed_iff.1 (.inr scrub)
    have once : s.scrub.list.countP (ScrubEntry.liveFor h) = 1 := by
      rw [show h = s.handle k from names.1, countP_liveFor]
      exact core.listed.once k ⟨l, names.2, scrub⟩
    refine ⟨fun queued => ?_, fun active => ?_⟩
    · have notActive : ¬x.active = true := by rw [ScrubEntry.active, queued]; exact Bool.false_ne_true
      obtain ⟨engine, progress⟩ := State.abandoned_eq (s := s.takeRequest m Request.clear.code) once list named
        (by rw [queued]; rfl)
      rw [engine, progress, if_neg notActive, if_neg notActive] at rule
      refine clearing _ 0 (fun e => e = { s.scrub with list := older ++ younger }) closed rule
        (ScrubEngine.activated_of_active ?_)
      obtain ⟨y, mem, active⟩ := core.served ⟨x, by rw [list]; exact List.mem_append_right _ List.mem_cons_self, by
        rw [ScrubEntry.isQueued, queued]; rfl⟩
      rw [list] at mem
      refine ⟨y, ?_, active⟩
      rcases List.mem_append.1 mem with old | young
      · exact List.mem_append_left _ old
      · exact List.mem_append_right _ ((List.mem_cons.1 young).resolve_left fun same => notActive (same ▸ active))
    · have isActive : x.active = true := by rw [ScrubEntry.active, active]; rfl
      obtain ⟨engine, progress⟩ := State.abandoned_eq (s := s.takeRequest m Request.clear.code) once list named
        (by rw [active]; rfl)
      rw [engine, progress, if_pos isActive, if_pos isActive, active] at rule
      refine clearing _ p _ closed rule (ScrubEngine.activatesTo_activated ?_)
      have one := core.sound.one
      rw [list, ← countP_split isActive] at one
      exact fun y mem => Bool.eq_false_iff.2
        (List.countP_eq_zero.1 (Nat.le_zero.1 (Nat.le_of_succ_le_succ one)) y mem)

end Sys2Proof.Proofs

end

section
/-! PROOF. The answers to scrub words: progress, the end of a run, completion and failure (R155 to R158). -/

namespace Sys2Proof.Machine

/-- Activation starts no run. -/
theorem ScrubEngine.run_activated (e : ScrubEngine) : e.activated.run = e.run := by
  unfold ScrubEngine.activated
  split <;> rfl

namespace State

variable {s t u : State} {k : SlotIx} {l : Lease} {older younger : List ScrubEntry} {x : ScrubEntry} {p : Nat} {r : Run}
  {f : Flight} {o : Mid} {tag : Tag}

/-- An event that leaves all as it is ends no run. -/
theorem letOn_self (s : State) : s.letOn s = s := by
  cases held : s.busHeld with
  | true => exact letOn_of_held held
  | false => exact letOn_of_free held

/-- With no word in flight there is nothing to answer (assumption log 6). -/
theorem words_of_none (landed : s.scrub.flight = none) : s.ackWord = s ∧ s.failWord = s := by
  constructor
  · unfold ackWord
    split
    · next flight => rw [landed] at flight; cases flight
    · rfl
  · unfold failWord
    split
    · next flight => rw [landed] at flight; cases flight
    · rfl

section
variable (active : s.activeEntry = some x) (run : s.scrub.run = some r) (flight : s.scrub.flight = some f)
include active run flight

/-- An acknowledgement (R155). -/
theorem ackWord_eq :
    s.ackWord =
      if s.scrubEnd x.handle ≤ x.state.progress + 4 then s.completeScrub x.handle
      else if r.limit ≤ r.words + 1 ∨ r.withdrawn = true then (s.setActive (.active (x.state.progress + 4))).endRun
      else
        ((s.setActive (.active (x.state.progress + 4))).setScrub
          { (s.setActive (.active (x.state.progress + 4))).scrub with
            run := some { r with words := r.words + 1 } }).placeWord (x.state.progress + 4) := by
  simp only [ackWord, active, run, flight]

/-- A failed word of a lease in SCRUB (R157). -/
theorem failWord_eq (handle : x.handle = s.handle k) (holds : s.lease k = some l) (hold : l.hold = .scrub o tag) :
    s.failWord =
      (s.setLease k { l with hold := .tainted o tag }).setScrub (s.finished (.failed f.address)).activated := by
  have named : s.scrubbed x.handle = some (k, l) := handle ▸ scrubbed_of_holds holds hold
  simp only [failWord, active, run, flight, named, hold]
  rw [finishActive_eq, activate_eq]
  rfl

end

/-- The completion of a lease's scrub (R158). -/
theorem completeScrub_eq (handle : x.handle = s.handle k) (holds : s.lease k = some l) (hold : l.hold = .scrub o tag) :
    s.completeScrub x.handle = (s.freeSlot k).grantPass.setScrub (s.finished .done).activated := by
  have named : s.scrubbed x.handle = some (k, l) := handle ▸ scrubbed_of_holds holds hold
  simp only [completeScrub, named]
  rw [finishActive_eq, freeSlot_setScrub, grantPass_setScrub, activate_eq, setScrub_setScrub]
  rfl

/-- Where the words of a lease in SCRUB end (R155). -/
theorem scrubEnd_eq (handle : x.handle = s.handle k) (holds : s.lease k = some l) (hold : l.hold = .scrub o tag) :
    s.scrubEnd x.handle = (s.pool l.range.pool).spanEnd l.range := by
  have named : s.scrubbed x.handle = some (k, l) := handle ▸ scrubbed_of_holds holds hold
  simp only [scrubEnd, named]

section
variable (list : s.scrub.list = older ++ x :: younger) (active : x.active = true)
  (others : ∀ y ∈ older ++ younger, y.active = false)
include list active others

theorem setActive_of_split (st : ScrubState) :
    s.setActive st = s.setScrub { s.scrub with list := older ++ { x with state := st } :: younger } := by
  rw [setActive, list, map_active active others]

/-- The engine when the ACTIVE entry has finished (R157, R158). -/
theorem finished_eq (st : ScrubState) :
    s.finished st =
      { s.scrub with
        list := if s.attached s.supmid = true then older ++ { x with state := st } :: younger else older ++ younger
        breq := false
        run := none
        flight := none } := by
  rw [finished, finishActive, list, map_active active others, filter_active active others]
  rfl

/-- Then no entry is ACTIVE. -/
theorem idle_finished {st : ScrubState} (done : st.live = false) : ∀ y ∈ (s.finished st).list, y.active = false := by
  rw [finished_eq list active others]
  intro y mem
  dsimp only at mem
  split at mem
  · rcases List.mem_append.1 mem with old | young
    · exact others y (List.mem_append_left _ old)
    · rcases List.mem_cons.1 young with rfl | young
      · exact ScrubEntry.active_of_finished done
      · exact others y (List.mem_append_right _ young)
  · exact others y mem

end

end State

end Sys2Proof.Machine

namespace Sys2Proof.Proofs

open Sys2Proof.Machine

/-- Settles O51. -/
theorem wordsAreAnswered : Obligations.WordsAreAnswered := by
  intro s law e
  refine ⟨fun landed => ?_, fun older younger x p r f k l o tag list state run flight handle holds hold => ?_⟩
  · obtain ⟨ack, fail⟩ := State.words_of_none landed
    exact ⟨congrArg Host.Outcome.next ((congrArg s.letOn ack).trans s.letOn_self),
      congrArg Host.Outcome.next ((congrArg s.letOn fail).trans s.letOn_self)⟩
  intro pool top moved ended
  have core := (State.scrubLaw_iff.1 law).1
  have isActive := State.active_of_state state
  have others : ∀ y ∈ older ++ younger, y.active = false := by
    have one := core.sound.one
    rw [show s.scrub.list = older ++ x :: younger from list, ← countP_split isActive] at one
    exact fun y mem => Bool.eq_false_iff.2
      (List.countP_eq_zero.1 (Nat.le_zero.1 (Nat.le_of_succ_le_succ one)) y mem)
  have active : s.activeEntry = some x :=
    State.activeEntry_of_split list isActive fun y mem => others y (List.mem_append_left _ mem)
  have busy : s.busHeld = true := State.busHeld_of_run run
  have ack := State.ackWord_eq active run flight
  rw [State.scrubEnd_eq handle holds hold, state, show (s.pool l.range.pool).spanEnd l.range = top from rfl,
    show (ScrubState.active p).progress = p from rfl] at ack
  have ends := State.finished_eq list isActive others
  have idle : ∀ st : ScrubState, (s.finished st).activated.run = none := fun st => by
    rw [ScrubEngine.run_activated, ends]
  refine ⟨fun more few given => congrArg Host.Outcome.next ?_, fun more last => congrArg Host.Outcome.next ?_, fun last => ?_,
    ?_⟩
  · have goes_on : ¬(r.limit ≤ r.words + 1 ∨ r.withdrawn = true) := by
      rw [given]; exact fun stops => stops.elim (Nat.not_le.2 few) Bool.false_ne_true
    rw [if_neg (Nat.not_le.2 more), if_neg goes_on] at ack
    rw [ack, State.letOn_of_held rfl, State.setActive_of_split list isActive others]
    rfl
  · rw [if_neg (Nat.not_le.2 more), if_pos last] at ack
    rw [ack, State.letOn_of_end busy rfl, State.setActive_of_split list isActive others]
    rfl
  · rw [if_pos last, State.completeScrub_eq handle holds hold] at ack
    have touches := State.touches_freeSlot_closed holds (by rw [hold]; rfl)
    refine ⟨_, s.freeSlot k, congrArg Host.Outcome.next ((congrArg s.letOn ack).trans
      (State.letOn_of_end busy (State.busHeld_of_no_run (idle .done)))), rfl, touches.frame, touches.leaseBecomes,
      fun n => touches.master n, ?_⟩
    rw [show ended .done = s.finished .done from (ends .done).symm]
    exact ScrubEngine.activatesTo_activated (State.idle_finished list isActive others rfl)
  · have fail := State.failWord_eq active run flight handle holds hold
    have touches := State.touches_setLease s k { l with hold := .tainted o tag }
    refine ⟨_, congrArg Host.Outcome.next ((congrArg s.letOn fail).trans
      (State.letOn_of_end busy (State.busHeld_of_no_run (idle _)))), rfl, touches.leaseBecomes, ?_⟩
    rw [show ended (.failed f.address) = s.finished (.failed f.address) from (ends _).symm]
    exact ScrubEngine.activatesTo_activated (State.idle_finished list isActive others rfl)

end Sys2Proof.Proofs

end

section
/-! PROOF. The lease table's tick, slot by slot (Table 4-2): `tickEffect` in the words of the statement. -/

namespace Sys2Proof.Machine

/-- The next tick brings a term to the warn level, unwarned (R75). -/
abbrev Term.WarnsNext (level : Nat) (n : Term) : Prop :=
  n.remaining = level + 1 ∧ 0 < level ∧ level < n.granted ∧ n.warned = false

theorem Term.warns_lower_iff {level : Nat} {n : Term} : n.lower.warns level = true ↔ n.WarnsNext level := by
  rw [Term.warns, Bool.and_eq_true, Bool.and_eq_true, Bool.and_eq_true, Bool.not_eq_true', and_assoc, and_assoc]
  refine ⟨fun ⟨last, positive, short, unwarned⟩ => ?_, fun ⟨last, positive, short, unwarned⟩ => ?_⟩
  · have last : n.remaining - 1 = level := of_decide_eq_true last
    have positive := of_decide_eq_true positive
    exact ⟨by omega, positive, of_decide_eq_true short, unwarned⟩
  · exact ⟨decide_eq_true (show n.remaining - 1 = level by omega), decide_eq_true positive, decide_eq_true short, unwarned⟩

/-- A term one tick later, its warned flag set where it is warned (R75, R78). -/
def Term.ticked (level : Nat) (n : Term) : Term :=
  { n with
    remaining := n.remaining - 1
    warned := if n.WarnsNext level then true else n.warned }

theorem Term.ticked_of_warns {level : Nat} {n : Term} (warns : n.WarnsNext level) :
    n.ticked level = { n.lower with warned := true } := by
  rw [Term.ticked, if_pos warns]
  rfl

theorem Term.ticked_of_not {level : Nat} {n : Term} (silent : ¬n.WarnsNext level) : n.ticked level = n.lower := by
  rw [Term.ticked, if_neg silent]
  rfl

theorem Sharer.tick_eq (level : Nat) (e : Sharer) : e.tick level = { e with term := e.term.ticked level } := by
  by_cases warns : e.term.WarnsNext level
  · rw [Term.ticked_of_warns warns, Sharer.tick]
    simp only [Term.warns_lower_iff.2 warns, if_true]
  · rw [Term.ticked_of_not warns, Sharer.tick]
    simp only [mt Term.warns_lower_iff.1 warns, if_false, Bool.false_eq_true]

/-- The sharers a tick leaves. -/
def sharersKept (es : List Sharer) : List Sharer := es.filter fun e => 1 < e.term.remaining

namespace State

variable {s t u : State} {k : SlotIx} {l : Lease} {o m : Mid} {tag : Tag} {n : Term} {c : List Mid} {es : List Sharer}

/-- Those left are those whose masters are not among the ones that run out. -/
theorem filter_sharersOut (distinct : (es.map Sharer.master).Nodup) (level : Nat) :
    ((es.map (Sharer.tick level)).filter fun e => e.master ∉ sharersOut es) =
      (sharersKept es).map fun e => { e with term := e.term.ticked level } := by
  have same : ∀ e ∈ es, decide (e.master ∉ sharersOut es) = decide (1 < e.term.remaining) := fun e mem => by
    refine decide_eq_decide.2 ⟨fun stays => ?_, fun more out => ?_⟩
    · by_contra few
      exact stays (List.mem_map.2 ⟨e, List.mem_filter.2 ⟨mem, decide_eq_true (Nat.not_lt.1 few)⟩, rfl⟩)
    · obtain ⟨e', mem', master⟩ := List.mem_map.1 out
      obtain ⟨mem', few⟩ := List.mem_filter.1 mem'
      rw [List.inj_on_of_nodup_map distinct mem' mem master] at few
      exact absurd (of_decide_eq_true few) (Nat.not_le.2 more)
  rw [List.filter_map, sharersKept, ← List.filter_congr same]
  exact List.map_congr_left fun e _ => e.tick_eq level

/-- A tick taints the lease: its grace runs out, or its term where there is no grace (R76, R77). -/
def TickTaints (s : State) (l : Lease) : Prop :=
  (∃ o tag n c, l.hold = .held o tag n c ∧ n.remaining ≤ 1 ∧ s.time.graceLength = 0) ∨
    ∃ o tag n c left, l.hold = .grace o tag n c left ∧ left ≤ 1

/-- The notices of a SHARED lease after a tick: warnings, then expiries (R78, R79). -/
def tickTold (s : State) (l : Lease) (es : List Sharer) : NoticeSet :=
  s.raised (s.raised l.notices .warned
    ((es.filter fun e => e.term.WarnsNext s.time.warnLevel).map Sharer.master)) .expired (sharersOut es)

/-! ### The effect on one slot, case by case -/

theorem tickEffect_of_closed (closed : l.hold.closed = true) : tickEffect s (some l) = .unchanged (some l) := by
  cases hold : l.hold with
  | tainted | scrub => simp only [tickEffect, hold]
  | held | grace | shared => rw [hold] at closed; cases closed

theorem tickEffect_of_running (hold : l.hold = .held o tag n c) (more : 1 < n.remaining) :
    tickEffect s (some l) =
      .unchanged (some
        { l with
          hold := .held o tag (n.ticked s.time.warnLevel) c
          notices := if n.WarnsNext s.time.warnLevel then s.raised l.notices .warned [o] else l.notices }) := by
  simp only [tickEffect, hold, if_neg (Nat.not_le.2 more)]
  by_cases warns : n.WarnsNext s.time.warnLevel
  · rw [if_pos (Term.warns_lower_iff.2 warns), if_pos warns, Term.ticked_of_warns warns]
  · rw [if_neg (mt Term.warns_lower_iff.1 warns), if_neg warns, Term.ticked_of_not warns]

theorem tickEffect_of_expiring (hold : l.hold = .held o tag n c) (out : n.remaining ≤ 1) (grace : 0 < s.time.graceLength) :
    tickEffect s (some l) = .unchanged (some (s.termEnded l o tag n c)) := by
  simp only [tickEffect, hold, if_pos out, if_neg grace.ne']

theorem tickEffect_of_grace {left : Nat} (hold : l.hold = .grace o tag n c left) (more : 1 < left) :
    tickEffect s (some l) = .unchanged (some { l with hold := .grace o tag n c (left - 1) }) := by
  simp only [tickEffect, hold, if_neg (Nat.not_le.2 more)]

theorem tickEffect_of_taints (taints : s.TickTaints l) (owner : l.hold.owner? = some o) :
    tickEffect s (some l) =
      { after := some (s.graceEnded l o), lost := fun n => if n = o then 1 else 0, moved := noMove } := by
  rcases taints with ⟨o', tag, n, c, hold, out, grace⟩ | ⟨o', tag, n, c, left, hold, out⟩
  · rw [hold] at owner
    obtain rfl := Option.some.inj owner
    simp only [tickEffect, hold, if_pos out, if_pos grace]
  · rw [hold] at owner
    obtain rfl := Option.some.inj owner
    simp only [tickEffect, hold, if_pos out]

section
variable (shape : HoldShape l.hold) (hold : l.hold = .shared es)
include shape hold

theorem tickEffect_of_shared :
    tickEffect s (some l) =
      if sharersKept es = [] then
        { after := none, lost := fun n => (sharersOut es).count n, moved := fun n => (s.tickTold l es)[n] }
      else
        { after :=
            some
              { l with
                hold := .shared ((sharersKept es).map fun e => { e with term := e.term.ticked s.time.warnLevel })
                notices := s.tickTold l es }
          lost := fun n => (sharersOut es).count n
          moved := noMove } := by
  rw [hold] at shape
  obtain ⟨some_sharer, -, distinct⟩ := shape
  have left := filter_sharersOut distinct s.time.warnLevel
  have told : s.raised (s.sharersTicked l es).notices .expired (sharersOut es) = s.tickTold l es := by
    have warned : sharersWarned s.time.warnLevel es =
        (es.filter fun e => e.term.WarnsNext s.time.warnLevel).map Sharer.master :=
      congrArg (List.map Sharer.master) (List.filter_congr fun e _ => by
        rw [Bool.eq_iff_iff, decide_eq_true_eq, Term.warns_lower_iff])
    rw [sharersTicked, warned]
    rfl
  have effect : tickEffect s (some l) =
      endSharersEffect s (s.sharersTicked l es) (es.map (Sharer.tick s.time.warnLevel)) (sharersOut es) := by
    simp only [tickEffect, hold]
  rw [effect]
  by_cases gone : sharersKept es = []
  · have some_end : sharersOut es ≠ [] := fun nobody => by
      obtain ⟨e, mem⟩ := List.exists_mem_of_ne_nil es some_sharer
      have short : ¬1 < e.term.remaining := fun more =>
        List.ne_nil_of_mem (List.mem_filter.2 ⟨mem, decide_eq_true more⟩) gone
      exact List.ne_nil_of_mem (List.mem_map.2
        ⟨e, List.mem_filter.2 ⟨mem, decide_eq_true (Nat.not_lt.1 short)⟩, rfl⟩) nobody
    rw [if_pos gone, endSharersEffect_of_gone some_end (by rw [left, gone]; rfl), told]
  · rw [if_neg gone, endSharersEffect_of_left (by rw [left]; exact mt List.map_eq_nil_iff.1 gone), left, told]
    rfl

end

/-- An EXCLUSIVE lease that is not tainted loses no holder, and its notices stay. -/
theorem tickEffect_of_steady (exclusive : l.hold.mode = .exclusive) (steady : ¬s.TickTaints l) :
    (tickEffect s (some l)).lost = noLoss ∧ (tickEffect s (some l)).moved = noMove := by
  cases hold : l.hold with
  | held o tag n c =>
    by_cases out : n.remaining ≤ 1
    · have grace : 0 < s.time.graceLength := Nat.pos_of_ne_zero fun none => steady (.inl ⟨o, tag, n, c, hold, out, none⟩)
      rw [tickEffect_of_expiring hold out grace]
      exact ⟨rfl, rfl⟩
    · rw [tickEffect_of_running hold (Nat.not_le.1 out)]
      exact ⟨rfl, rfl⟩
  | grace o tag n c left =>
    have more : 1 < left := Nat.not_le.1 fun out => steady (.inr ⟨o, tag, n, c, left, hold, out⟩)
    rw [tickEffect_of_grace hold more]
    exact ⟨rfl, rfl⟩
  | tainted | scrub => rw [tickEffect_of_closed (by rw [hold]; rfl)]; exact ⟨rfl, rfl⟩
  | shared => rw [hold] at exclusive; cases exclusive

/-- The notices of a slot that a tick frees. -/
def tickFreed (s : State) (k : SlotIx) : Option NoticeSet :=
  (s.lease k).bind fun l =>
    match l.hold with
    | .shared es => if sharersKept es = [] then some (s.tickTold l es) else none
    | _ => none

theorem tickFreed_eq_some {ns : NoticeSet} :
    s.tickFreed k = some ns ↔
      ∃ l es, s.lease k = some l ∧ l.hold = .shared es ∧ sharersKept es = [] ∧ ns = s.tickTold l es := by
  constructor
  · intro freed
    obtain ⟨l, holds, freed⟩ := Option.bind_eq_some_iff.1 freed
    split at freed
    · next es hold =>
      split at freed
      · next gone => exact ⟨l, es, holds, hold, gone, (Option.some.inj freed).symm⟩
      · cases freed
    · cases freed
  · rintro ⟨l, es, holds, hold, gone, rfl⟩
    simp only [tickFreed, holds, Option.bind_some, hold, if_pos gone]

theorem owner_of_tickTaints (taints : s.TickTaints l) : l.hold.mode = .exclusive ∧ ∃ o, l.hold.owner? = some o := by
  rcases taints with ⟨o, tag, n, c, hold, -⟩ | ⟨o, tag, n, c, left, hold, -⟩ <;> rw [hold] <;> exact ⟨rfl, o, rfl⟩

/-- Only the notices of a freed slot move (R34). -/
theorem moved_tickEffect (shape : ∀ l, s.lease k = some l → HoldShape l.hold) (m : Mid) :
    (tickEffect s (s.lease k)).moved m = (s.tickFreed k).bind fun ns => ns[m] := by
  cases holds : s.lease k with
  | none => simp only [tickFreed, holds]; rfl
  | some l =>
    cases mode : l.hold.mode with
    | shared =>
      obtain ⟨es, hold⟩ := Hold.mode_shared_iff.1 mode
      rw [tickEffect_of_shared (shape l holds) hold]
      by_cases gone : sharersKept es = []
      · rw [if_pos gone, tickFreed_eq_some.2 ⟨l, es, holds, hold, gone, rfl⟩]
        rfl
      · have kept : s.tickFreed k = none := by
          simp only [tickFreed, holds, Option.bind_some, hold, if_neg gone]
        rw [if_neg gone, kept]
        rfl
    | exclusive =>
      have kept : s.tickFreed k = none := Option.eq_none_iff_forall_ne_some.2 fun ns freed => by
        obtain ⟨l', es, holds', hold, -⟩ := tickFreed_eq_some.1 freed
        obtain rfl := Option.some.inj (holds.symm.trans holds')
        rw [hold] at mode
        cases mode
      rw [kept]
      by_cases taints : s.TickTaints l
      · obtain ⟨o, owner⟩ := (owner_of_tickTaints taints).2
        rw [tickEffect_of_taints taints owner]
        rfl
      · rw [(tickEffect_of_steady mode taints).2]
        rfl

/-- The scan of the table by a tick. -/
theorem scans_tick (shape : ∀ k l, s.lease k = some l → HoldShape l.hold) :
    s.Scans allSlots (fun k => tickEffect s (s.lease k)) (allSlots.foldl tickSlot s) :=
  scans_foldl allSlots nodup_allSlots s fun t k _ view same => by
    have lease : t.lease k = s.lease k := congrArg Slot.lease same
    have touches := touches_tickSlot t k fun l es holds hold => by
      have shape := shape k l (lease ▸ holds)
      rw [hold] at shape
      exact shape.2.2
    rwa [lease, tickEffect_congr view] at touches

/-- A tick ends a membership of the lease exactly where a sharer's term runs out. -/
theorem losesSharer_iff {l : Lease} : l.losesSharer = true ↔ sharersOut l.hold.sharers ≠ [] := by
  rw [Lease.losesSharer, sharersOut, ne_eq, List.map_eq_nil_iff, List.filter_eq_nil_iff, List.any_eq_true]
  simp only [not_forall, not_not, exists_prop]

/-- A tick runs a grant pass exactly where it ends a membership (R74). -/
theorem tableTick_of_ending (ending : ∃ k l, s.lease k = some l ∧ sharersOut l.hold.sharers ≠ []) :
    s.tableTick = (allSlots.foldl tickSlot s).grantPass := by
  obtain ⟨k, l, holds, out⟩ := ending
  refine if_pos (Option.isSome_iff_ne_none.2 fun nowhere => ?_)
  have none_ends := (findLease_eq_none s).1 nowhere k l holds
  rw [losesSharer_iff.2 out] at none_ends
  cases none_ends

theorem tableTick_of_none_ending (none_ends : ∀ k l, s.lease k = some l → sharersOut l.hold.sharers = []) :
    s.tableTick = allSlots.foldl tickSlot s := by
  have nowhere : s.findLease Lease.losesSharer = none := (findLease_eq_none s).2 fun k l holds =>
    Bool.eq_false_iff.2 fun ends => losesSharer_iff.1 ends (none_ends k l holds)
  exact if_neg (by rw [nowhere]; exact Bool.false_ne_true)

end State

end Sys2Proof.Machine

namespace Sys2Proof.Proofs

open Sys2Proof.Machine

/-- Settles O48. -/
theorem leaseTableTick : Obligations.LeaseTableTick := by
  intro s law level warns lower taints kept out told
  have shape : ∀ k l, s.lease k = some l → State.HoldShape l.hold := fun k l holds => (law.1 k l holds).1
  obtain ⟨y, hy⟩ : ∃ y, y = s.setTicks { s.ticks with tableDue := s.ticks.tableDue - 1 } := ⟨_, rfl⟩
  have view : s.SameView y := by rw [hy]; exact ⟨rfl, rfl, rfl⟩
  have slots : ∀ k, y.slot k = s.slot k := fun k => by rw [hy]; rfl
  have lease : ∀ k, y.lease k = s.lease k := fun k => congrArg Slot.lease (slots k)
  have scan := State.scans_tick (s := y) (by simpa only [lease] using shape)
  have effect : (fun k => State.tickEffect y (y.lease k)) = fun k => State.tickEffect s (s.lease k) :=
    funext fun k => by rw [lease, State.tickEffect_congr view]
  rw [effect] at scan
  have run : exec .leaseTableTick s = .next y.tableTick := by rw [hy]; rfl
  have ending := State.tableTick_of_ending (s := y)
  have none_ending := State.tableTick_of_none_ending (s := y)
  simp only [lease] at ending none_ending
  generalize allSlots.foldl State.tickSlot y = u at scan ending none_ending
  have after : ∀ k l, s.lease k = some l → u.lease k = (State.tickEffect s (some l)).after := fun k l holds => by
    rw [scan.lease_all, holds]
  refine ⟨_, u, run, ending, none_ending, ?_, fun k => ⟨?_, fun free => ?_⟩, fun k l holds => ?_, fun m => ⟨?_, ?_⟩⟩
  · rw [scan.frame, hy]
    rfl
  · rw [scan.gen, slots]
  · rw [scan.lease_all, free]
    rfl
  · rw [after k l holds]
    refine ⟨fun closed => ?_, fun o tag n c hold => ⟨fun more => ?_, fun out grace => ?_⟩, fun o tag n c left hold more => ?_,
      fun tainting o owner => ?_, fun es hold => ?_⟩
    · rw [State.tickEffect_of_closed closed]; rfl
    · rw [State.tickEffect_of_running hold more]; rfl
    · rw [State.tickEffect_of_expiring hold out grace]; rfl
    · rw [State.tickEffect_of_grace hold more]; rfl
    · rw [State.tickEffect_of_taints tainting owner]; rfl
    · have effect := State.tickEffect_of_shared (s := s) (shape k l holds) hold
      refine ⟨fun gone => ?_, fun left => ?_⟩
      · rw [effect, if_pos (show sharersKept es = [] from gone)]
      · rw [effect, if_neg (show ¬sharersKept es = [] from left)]
        rfl
  · refine ⟨fun k => (State.tickEffect s (s.lease k)).lost m, fun k free => ?_, fun k l holds => ⟨fun owner tainting => ?_,
      fun shared => ?_, fun exclusive steady => ?_⟩, ?_⟩
    · dsimp only; rw [free]; rfl
    all_goals dsimp only
    · rw [holds, State.tickEffect_of_taints tainting owner]
      exact if_pos rfl
    · obtain ⟨es, hold⟩ := Hold.mode_shared_iff.1 shared
      rw [holds, State.tickEffect_of_shared (shape k l holds) hold, hold]
      split <;> rfl
    · rw [holds]
      by_cases tainting : s.TickTaints l
      · obtain ⟨o, owner⟩ := (State.owner_of_tickTaints tainting).2
        rw [State.tickEffect_of_taints tainting owner]
        refine if_neg fun same => ?_
        rw [owner, same] at steady
        exact steady.elim (fun other => other rfl) fun not_tainting => not_tainting tainting
      · rw [(State.tickEffect_of_steady exclusive tainting).1]
        rfl
    · rw [scan.master, show y.master m = s.master m by rw [hy]; rfl]
  · refine ⟨s.tickFreed, fun k ns => State.tickFreed_eq_some, State.orphansOf_of_along ?_ fun k =>
      State.moved_tickEffect (shape k) m⟩
    rw [scan.master, show y.master m = s.master m by rw [hy]; rfl,
      State.orphanAlong_congr (s := s) (t := y) (by rw [hy]; rfl)]

end Sys2Proof.Proofs

end

section
/-! PROOF. A power-on or pin reset and its end (O53), and what no other event touches: the waiting commands and the
straps. -/

namespace Sys2Proof.Machine.State

variable {s t u : State}

/-! ### What no event touches -/

/-- `t` has the waiting commands and the sampled straps of `s`. -/
structure Fixes (s t : State) : Prop where
  pending : t.pending = s.pending
  supmid : t.supmid = s.supmid
  wseg : t.wseg = s.wseg

theorem Fixes.trans (h : s.Fixes t) (g : t.Fixes u) : s.Fixes u :=
  ⟨g.pending.trans h.pending, g.supmid.trans h.supmid, g.wseg.trans h.wseg⟩

/-- A change of the leases, the claims, the master records and the scrub engine. -/
theorem Fixes.of_frame (frame : t = { s with
    slots := t.slots, queue := t.queue, masters := t.masters, scrub := t.scrub }) : s.Fixes t := by
  rw [frame]
  exact ⟨rfl, rfl, rfl⟩

theorem Outer.fixes (h : s.Outer t) : s.Fixes t := by
  rw [h]
  exact ⟨rfl, rfl, rfl⟩

theorem fixes_softReset (s : State) : s.Fixes s.softReset := by
  have frame := s.softReset_frame
  generalize s.softReset = t at frame ⊢
  rw [frame]
  exact ⟨rfl, rfl, rfl⟩

theorem Calm.fixes (h : s.Calm t) : s.Fixes t := by
  cases h with
  | outer outer => exact outer.fixes
  | @table t e steps =>
    have frame := frame_of_descents steps
    refine .of_frame ?_
    rw [frame]
    rfl
  | thin thins =>
    refine .of_frame ?_
    rw [thins.frame]
  | enqueue => exact ⟨rfl, rfl, rfl⟩
  | adopt => exact ⟨rfl, rfl, rfl⟩
  | master => exact ⟨rfl, rfl, rfl⟩
  | strip => exact ⟨rfl, rfl, rfl⟩
  | @fence m x =>
    have first : s.Fixes (s.setMaster m x) := ⟨rfl, rfl, rfl⟩
    have frame := (s.setMaster m x).fenceClean_frame m
    generalize s.setMaster m x = t at first frame ⊢
    generalize t.fenceClean m = u at frame ⊢
    refine first.trans (.of_frame ?_)
    rw [frame]
  | repool => exact ⟨rfl, rfl, rfl⟩
  | softReset => exact s.fixes_softReset

theorem NewGrant.fixes (h : s.NewGrant t) : s.Fixes t := by
  obtain ⟨-, -, -⟩ := h
  refine .of_frame ?_
  rw [grantAt_frame]

theorem PassGrant.fixes (h : s.PassGrant t) : s.Fixes t := by
  obtain ⟨-, -⟩ := h
  refine .of_frame ?_
  rw [grantInPass_frame]
  rfl

theorem Runs.fixes (h : s.Runs t) : s.Fixes t :=
  h.keeps (P := s.Fixes) (fun _ _ calm before => before.trans calm.fixes) (fun _ _ new before => before.trans new.fixes)
    (fun _ _ pass before => before.trans pass.fixes) ⟨rfl, rfl, rfl⟩

/-- No command but its own step takes a waiting command (assumption log 12). -/
theorem pending_exec {c : Instr} (e : exec c s = .next t) : t.pending = s.pending := by
  by_cases notReset : ∀ sup seg, c ≠ .powerOnReset sup seg ∧ c ≠ .pinReset sup seg
  · exact (runs_exec e notReset).fixes.pending
  · simp only [not_forall, not_and_or, not_not] at notReset
    obtain ⟨sup, seg, rfl | rfl⟩ := notReset
    · injection e with e; rw [← e]; rfl
    · injection e with e; rw [← e]; rfl

/-! ### The reset values -/

section ResetValues

variable (s : State) (cause : ResetCause) (sup : Mid) (seg : BitVec 4)

theorem pool_resetAs (p : PoolIx) : (s.resetAs cause sup seg).pool p = Pool.reset := by
  simp [resetAs, State.reset, pool]

theorem slot_resetAs (k : SlotIx) : (s.resetAs cause sup seg).slot k = Slot.reset := by
  simp [resetAs, State.reset, slot]

theorem win_resetAs (n : Mid) : (s.resetAs cause sup seg).win n = WindowSlot.reset := by
  simp [resetAs, State.reset, win]

/-- After a reset nobody has a pending item, so no attention line is asserted. -/
theorem atn_resetAs (n : Mid) : (s.resetAs cause sup seg).atn n = false := by
  rw [Bool.eq_false_iff, Ne, atn_iff]
  rintro (orphan | ⟨e, mem, -⟩ | ⟨k, l, holds, -⟩ | ⟨e, mem, -⟩)
  · rw [master_resetAs] at orphan
    exact orphan rfl
  · cases mem
  · rw [lease, slot_resetAs] at holds
    cases holds
  · cases mem

end ResetValues

end Sys2Proof.Machine.State

namespace Sys2Proof.Proofs

open Sys2Proof.Machine

/-- Settles O53: both resets leave `State.resetAs`; every other command is an event, which leaves the waiting commands
and the straps alone. -/
theorem resetValues : Obligations.ResetValues := by
  intro s sup seg resets
  have values : ∀ (c : Instr) (cause : ResetCause), exec c s = .next (s.resetAs cause sup seg) → resets c cause :=
    fun c cause e => ⟨_, e, s.pool_resetAs cause sup seg, s.slot_resetAs cause sup seg, rfl,
      s.master_resetAs cause sup seg, s.atn_resetAs cause sup seg, rfl, rfl, rfl, rfl, s.win_resetAs cause sup seg, rfl,
      rfl, rfl, rfl, rfl, rfl⟩
  refine ⟨values _ _ rfl, values _ _ rfl, rfl, fun reset free m => ⟨fun r => ?_, fun code => ?_, fun offset data => ?_⟩,
    fun t c e => ⟨State.pending_exec e, fun notReset => ?_⟩⟩
  · rw [exec_command]
    exact congrArg Host.Outcome.next (s.serveRequest_of_reset free reset)
  · exact congrArg Host.Outcome.next (s.serveRequest_of_reset free reset)
  · exact congrArg Host.Outcome.next (State.serveWindow_of_error free (.inl reset) .write data)
  · have fixes := (State.runs_exec e notReset).fixes
    exact ⟨fixes.supmid, fixes.wseg⟩

end Sys2Proof.Proofs
end
